-- ==== Sys2Proof/Word.lean ====
section
/-! DEFINITION. The words of the hardware and their plainest arithmetic. -/

namespace Sys2Proof

/-- One byte: the unit of IN, OUT and the bitstream (20_memory.md R62, R63). -/
abbrev Byte := BitVec 8

/-- One 16-bit count of the build scratch (10_state.md R25). -/
abbrev Half := BitVec 16

/-- One 32-bit register or command word (10_state.md R28, 30_encoding.md R90). -/
abbrev Word := BitVec 32

/-- A node number of a decode tree: 9 bits, 0..510 in use (10_state.md R24). -/
abbrev Node := BitVec 9

/-- An offset of the 4 MiB host space (20_memory.md R60). -/
abbrev Offset := BitVec 22

/-- A count of bytes up to 2^20: OFF, E, OUT_LEN, CONSUMED (10_state.md R26, R40, R41). -/
abbrev Count21 := BitVec 21

/-- A word from bytes, the first byte in the least significant position (20_memory.md R64). -/
def leWord : List Byte → Word
  | [] => 0
  | b :: rest => b.setWidth 32 ||| (leWord rest <<< 8)

/-- The `n` low bytes of a word, the least significant first (20_memory.md R64). -/
def leBytes : Nat → Word → List Byte
  | 0, _ => []
  | n + 1, w => w.setWidth 8 :: leBytes n (w >>> 8)

end Sys2Proof
end

