-- ==== Sys2Proof/Config.lean ====
section
/-! DEFINITION. What an implementation fixes (00_scope.md R5, R6) and the free values (R10). -/

namespace Sys2Proof

/-- The parameters the source leaves open (00_scope.md R6). -/
structure Params where
  /-- BASE: the platform address of offset 0 of the host space. -/
  base : Nat
  /-- IN_SIZE: the bytes of the IN window. -/
  inSize : Nat
  /-- OUT_SIZE: the bytes of the OUT window. -/
  outSize : Nat
deriving DecidableEq, Repr

/-- The values of 00_scope.md R6's column "default for the vectors" (log 4). -/
def Params.default : Params := { base := 0, inSize := 65536, outSize := 1048576 }

/-- Where the platform puts a host offset (20_memory.md R60: the space is mapped at BASE). -/
def Params.platformAddress (p : Params) (a : Offset) : Nat := p.base + a.toNat

/-- NSYM of 00_scope.md R5: the leaf symbols, numbered below every internal node. -/
abbrev Config.nsym : Nat := 256

/-- MAXNODES of 00_scope.md R5: the node numbers of one context. -/
abbrev Config.maxNodes : Nat := 511

/-- HDR of 00_scope.md R5: the bytes of a block's length header. -/
abbrev Config.hdr : Nat := 4

/-- SLACK of 00_scope.md R5: the bytes past a block that are no overread. -/
abbrev Config.slack : Nat := 1

/-- One byte past the register region (20_memory.md R61). -/
abbrev Config.regEnd : Nat := 0x100

/-- The host offset of IN[0] (20_memory.md R61, R62). -/
abbrev Config.inBase : Nat := 0x100000

/-- The host offset of OUT[0] (20_memory.md R61, R63). -/
abbrev Config.outBase : Nat := 0x200000

/-- Word `i` of the k-th `draw()` of a run (00_scope.md R10): a free value, any value, with no law on it (log 3). A draw
of one value has its word 0 only; a draw of a whole array has a word for each entry. -/
opaque Config.freeWord : (k i : Nat) → BitVec 32

/-- What a byte of IN or OUT holds that nothing has written since the `gen`-th reset (20_memory.md R62, R63;
70_reset_and_hazards.md R231): a free value at each host offset (log 6). -/
opaque Config.unwrittenByte : (gen a : Nat) → BitVec 8

/-- Entry `i` of the k-th draw at width `w` (00_scope.md R10: "any value of the stated width"). -/
def drawEntry (w k i : Nat) : BitVec w := (Config.freeWord k i).setWidth w

/-- The k-th draw at width `w`. -/
def drawBits (w k : Nat) : BitVec w := drawEntry w k 0

/-- A vector given by the value at each index. -/
def tabulate {α : Type} (n : Nat) (f : Nat → α) : Vector α n := ⟨⟨(List.range n).map f⟩, by simp⟩

/-- A list's first `n` values, with `x` after its end. -/
def padTo {α : Type} (x : α) : Nat → List α → List α
  | 0, _ => []
  | n + 1, [] => x :: padTo x n []
  | n + 1, y :: rest => y :: padTo x n rest

@[simp] theorem padTo_length {α : Type} (x : α) (n : Nat) (l : List α) : (padTo x n l).length = n := by
  induction n generalizing l with
  | zero => rfl
  | succ n ih => cases l <;> simp [padTo, ih]

/-- The vector of a list's first `n` values, with `x` after its end. -/
def padded {α : Type} (x : α) (n : Nat) (l : List α) : Vector α n := ⟨⟨padTo x n l⟩, by simp⟩

/-- The k-th draw as an array of `n` entries of width `w`. -/
def drawVector (w n k : Nat) : Vector (BitVec w) n := tabulate n fun i => drawEntry w k i

end Sys2Proof
end

