-- ==== Sys2Proof/Syntax.lean ====
section
/-! DEFINITION. The instructions: the three commands of spec/opcode_table.json (30_encoding.md R91). -/

namespace Sys2Proof

/-- A command of the HUF1 command set, version 1 (00_scope.md R11). No command has an operand in its word
(30_encoding.md R97). -/
inductive Instr where
  /-- BUILD: the decode-tree table from the frequency image (40_build.md R110). -/
  | build
  /-- DECODE: one compressed block from IN into OUT (41_decode.md R140). -/
  | decode
  /-- RELEASE: destroys the table (42_control.md R170). -/
  | release
deriving DecidableEq, Repr

end Sys2Proof
end

