-- ==== Sys2Proof/WellFormed.lean ====
section
/-! DEFINITION. What is well formed: a command word's fields (30_encoding.md R90 to R92), an instruction (it has no
operand, R97) and the parameters (00_scope.md R6). -/

namespace Sys2Proof

/-- A word of the format CMD32 cut into its fields (30_encoding.md R90). -/
structure Cmd32 where
  /-- OP, bits 3:0. -/
  op : BitVec 4
  /-- RSV, bits 31:4. -/
  rsv : BitVec 28
deriving DecidableEq, Repr

/-- The reserved field is 0 (30_encoding.md R90, R92). -/
def Cmd32.rsvOk (c : Cmd32) : Bool := c.rsv == 0

/-- The opcode is assigned (30_encoding.md R91, R92). -/
def Cmd32.opOk (c : Cmd32) : Bool := c.op == 1 || c.op == 2 || c.op == 3

/-- A word that is one of the three of 30_encoding.md R91. -/
def Cmd32.wellFormed (c : Cmd32) : Bool := c.rsvOk && c.opOk

/-- Every instruction is well formed: none carries an operand (30_encoding.md R97). -/
def Instr.wellFormed : Instr → Bool
  | .build => true
  | .decode => true
  | .release => true

/-- BASE is aligned to 4 MiB (00_scope.md R6). -/
def Params.baseOk (p : Params) : Bool := p.base % 0x400000 == 0

/-- IN_SIZE holds the frequency image and fits its window (00_scope.md R6). -/
def Params.inSizeOk (p : Params) : Bool := decide (65536 ≤ p.inSize) && decide (p.inSize ≤ 1048576)

/-- OUT_SIZE is not 0 and fits its window (00_scope.md R6). -/
def Params.outSizeOk (p : Params) : Bool := decide (1 ≤ p.outSize) && decide (p.outSize ≤ 1048576)

/-- The legal parameter values of 00_scope.md R6. -/
def Params.wellFormed (p : Params) : Bool := p.baseOk && p.inSizeOk && p.outSizeOk

end Sys2Proof
end

