-- ==== Sys2Proof/Decode.lean ====
section
/-! DEFINITION. The decoder of command words, total on any bytes and rejecting by name, and the encoder
(30_encoding.md R90 to R92, R96). -/

namespace Sys2Proof

/-- Why bytes are no command. Each of the two words' reasons is the illegal word of 30_encoding.md R92. -/
inductive DecodeError where
  /-- RSV is not 0 (30_encoding.md R92). -/
  | reservedBits (rsv : BitVec 28)
  /-- OP is 0x0 or 0x4..0xF with RSV = 0 (30_encoding.md R92). -/
  | unassignedOp (op : BitVec 4)
  /-- Fewer than the four bytes of a word: no CMD write carries so few (20_memory.md R68). -/
  | tooShort
deriving DecidableEq, Repr

/-- The fields of a word (30_encoding.md R90). -/
def cmdFields (w : Word) : Cmd32 := { op := w.extractLsb' 0 4, rsv := w.extractLsb' 4 28 }

/-- The instruction of a word's fields (30_encoding.md R91), every other word refused (R92). -/
def decodeFields (c : Cmd32) : Except DecodeError Instr :=
  if c.rsv ≠ 0 then .error (.reservedBits c.rsv)
  else if c.op = 1 then .ok .build
  else if c.op = 2 then .ok .decode
  else if c.op = 3 then .ok .release
  else .error (.unassignedOp c.op)

/-- The command a CMD write submits (30_encoding.md R90 to R92). -/
def decodeWord (w : Word) : Except DecodeError Instr := decodeFields (cmdFields w)

/-- The instruction at the head of a byte sequence, with the bytes after it: one little-endian 32-bit word
(30_encoding.md R96, 20_memory.md R64). -/
def decodeBytes : List Byte → Except DecodeError (Instr × List Byte)
  | b0 :: b1 :: b2 :: b3 :: rest => (decodeWord (leWord [b0, b1, b2, b3])).map fun i => (i, rest)
  | _ => .error .tooShort

/-- The fields that encode an instruction (30_encoding.md R91). -/
def encodeFields : Instr → Cmd32
  | .build => { op := 1, rsv := 0 }
  | .decode => { op := 2, rsv := 0 }
  | .release => { op := 3, rsv := 0 }

/-- A word from its fields (30_encoding.md R90: OP in bits 3:0, RSV in bits 31:4). -/
def Cmd32.word (c : Cmd32) : Word := c.rsv ++ c.op

/-- The word of an instruction (30_encoding.md R91). -/
def encode (i : Instr) : Word := (encodeFields i).word

/-- The bytes of an instruction as the bus carries them (20_memory.md R64). -/
def encodeBytes (i : Instr) : List Byte := leBytes 4 (encode i)

/-- The instruction the decoder reads from bits numbered as spec/opcode_table.json numbers them: the low `nbits` of
`w`, laid out as four little-endian bytes. -/
def decodeTableWord (nbits w : Nat) : Option Instr :=
  match decodeBytes (leBytes 4 (BitVec.ofNat 32 (w % 2 ^ nbits))) with
  | .ok (i, _) => some i
  | .error _ => none

/-! The words of 30_encoding.md R91, written out. -/

theorem decodeWord_build : decodeWord 0x00000001#32 = .ok .build := by decide

theorem decodeWord_decode : decodeWord 0x00000002#32 = .ok .decode := by decide

theorem decodeWord_release : decodeWord 0x00000003#32 = .ok .release := by decide

end Sys2Proof
end

