-- ==== Sys2Proof/Machine/State.lean ====
section
/-! DEFINITION. The state of the block and of its host interface, and the state right after reset
(10_state.md, 20_memory.md R62, R63, 60_exceptions.md R214, 70_reset_and_hazards.md R230, R231). -/

namespace Sys2Proof.Machine

/-- The sequencer, which stands in for a program counter (10_state.md R27). -/
inductive Sequencer where
  /-- IDLE: no command in progress, BUSY = 0. -/
  | idle
  /-- BUILD(c): building context c. -/
  | build (c : Byte)
  /-- DECODE: walking a block. -/
  | decode
deriving DecidableEq, Repr

/-- The error codes of STATUS.ERR that are ever produced (60_exceptions.md R201). -/
inductive ErrCode where
  | none | badCmd | noTable | tablePresent | inLenRange | shortBlock | outRange | degenerateRoot | inputExhausted
deriving DecidableEq, Repr

/-- The working registers of the decode datapath (10_state.md R26). -/
structure Datapath where
  /-- NODE: the current node number of the walk. -/
  node : Node
  /-- CTX: the current context. -/
  ctx : Byte
  /-- REM: output bytes still owed. -/
  rem : Word
  /-- BYTE: the input byte being consumed. -/
  byte : Byte
  /-- SLOT: the next bit slot of BYTE. -/
  slot : BitVec 3
  /-- OFF: the offset of the next input byte to fetch. -/
  off : Count21
  /-- E: the output bytes emitted. -/
  e : Count21
deriving DecidableEq, Repr

/-- The build scratch (10_state.md R25). -/
structure Scratch where
  /-- CNT[i]: a count for each node number. -/
  cnt : Vector Half 511
  /-- USED[i]: the mark "already picked" of each node number. -/
  used : Vector Bool 511
deriving DecidableEq, Repr

/-- A host bus transaction at a host offset (20_memory.md R66), named as 30_encoding.md R99 names it. -/
inductive HostTxn where
  | rd8 (a : Offset)
  | rd16 (a : Offset)
  | rd32 (a : Offset)
  | wr8 (a : Offset) (v : BitVec 8)
  | wr16 (a : Offset) (v : BitVec 16)
  | wr32 (a : Offset) (v : BitVec 32)
deriving DecidableEq, Repr

/-- What happens next, and who does it (00_scope.md R4; log 1). -/
inductive Event where
  /-- The host performs a transaction. -/
  | host (t : HostTxn)
  /-- The host's WAIT (30_encoding.md R99). -/
  | wait
  /-- The block makes one step (00_scope.md R7). -/
  | block
  /-- The platform resets the block (70_reset_and_hazards.md R230). -/
  | reset
deriving DecidableEq, Repr

/-- What a host read returned: `name <- MemRead(a, n)` (00_scope.md R10). -/
structure HostRead where
  a : Offset
  n : Nat
  data : Word
deriving DecidableEq, Repr

/-- The model-level faults (60_exceptions.md R214). The spec has the model RECORD them in a set, the run going on, so
no step of this model answers `Host.Outcome.fault`: `State.faults` holds them (log 8). -/
inductive Fault where
  /-- `BusError(a, n)`: recorded by a host transaction that 20_memory.md R66 to R68 do not regionOf; the block is
  unchanged. Safe: a claim about a host program takes "no fault recorded" as a premise. -/
  | busError (a : Offset) (n : Nat)
  /-- `HostRace(a)`: recorded by a host write to IN or OUT while BUSY = 1 (70_reset_and_hazards.md R236). Safe, for
  the same reason. -/
  | hostRace (a : Offset)
deriving DecidableEq, Repr

/-- Why an instruction has no meaning. -/
inductive Refusal where
  /-- An instruction the model gives no meaning yet, rejected by name in `exec`'s arm; no arm does. Safe. -/
  | notModelled (mnemonic : String)
deriving DecidableEq, Repr

/-- The host space's bytes: cells of a host offset and a byte, offsets strictly rising (`Memory.wf`). A byte that is
not listed has no value here; `State.readByte` gives it its free value (log 6). -/
abbrev Memory := List Host.Cell

/-- Everything the spec gives the machine (10_state.md R20), and the model's own bookkeeping after it. -/
structure State where
  /-- The parameters, read by CFG_IN_SIZE and CFG_OUT_SIZE (10_state.md R45, R46). -/
  params : Params
  /-- The sequencer; STATUS.BUSY is its being other than IDLE (R27, R31; log 2). -/
  seq : Sequencer
  /-- STATUS.DONE (R32). -/
  done : Bool
  /-- TABLE_VALID (R23, R33). -/
  tableValid : Bool
  /-- STATUS.OVERREAD (R34). -/
  overread : Bool
  /-- STATUS.UNDERREAD (R35). -/
  underread : Bool
  /-- STATUS.DROPPED (R36). -/
  dropped : Bool
  /-- STATUS.ERR (R37). -/
  err : ErrCode
  /-- IN_LEN (R38). -/
  inLen : Word
  /-- OUT_COUNT (R39). -/
  outCount : Word
  /-- OUT_LEN bits 20:0 (R40). -/
  outLen : Count21
  /-- CONSUMED bits 20:0 (R41). -/
  consumed : Count21
  /-- TADDR.CTX, bits 7:0 (R42). -/
  taddrCtx : Byte
  /-- TADDR.NODE, bits 24:16 (R42). -/
  taddrNode : Node
  /-- IN_LEN_L (R48). -/
  inLenL : Word
  /-- The decode datapath (R26). -/
  dp : Datapath
  /-- CHILD (R21): for each context the pairs (child 0, child 1) of its built internal nodes, node 256 first. A slot
  that is not listed was never built: its contents are unspecified (40_build.md R117), the draw `unbuilt` (log 5). -/
  child : Vector (List (Node × Node)) 256
  /-- The number of the draw that the unlisted slots of CHILD hold: a fresh one at each reset
  (70_reset_and_hazards.md R231) and at each BUILD's completion (40_build.md R117; log 5). -/
  unbuilt : Nat
  /-- ROOT (R22). -/
  root : Vector Node 256
  /-- CNT and USED (R25). -/
  scratch : Scratch
  /-- IN and OUT (20_memory.md R62, R63). -/
  mem : Memory
  /-- The IN and OUT offsets the host wrote during the running command (70_reset_and_hazards.md R236). -/
  raced : List Nat
  /-- The model-level faults recorded so far, without repeats (60_exceptions.md R214). -/
  faults : List Fault
  /-- The model's own: the events still to come (log 1). -/
  agenda : List Event
  /-- The model's own: what the host's reads returned, newest first (log 7). -/
  reads : List HostRead
  /-- The model's own: the number of the next draw (log 3). -/
  draws : Nat
  /-- The model's own: the resets so far, which number the free values of unwritten memory (log 6). -/
  gen : Nat
deriving DecidableEq, Repr

/-- The datapath with unspecified contents: seven draws from number `k` on (10_state.md R26). -/
def Datapath.free (k : Nat) : Datapath :=
  { node := drawBits 9 k, ctx := drawBits 8 (k + 1), rem := drawBits 32 (k + 2), byte := drawBits 8 (k + 3),
    slot := drawBits 3 (k + 4), off := drawBits 21 (k + 5), e := drawBits 21 (k + 6) }

/-- The scratch with unspecified contents: draws `k` and `k + 1` (10_state.md R25). -/
@[irreducible] def Scratch.free (k : Nat) : Scratch :=
  { cnt := drawVector 16 511 k, used := tabulate 511 fun i => drawEntry 1 (k + 1) i == 1#1 }

/-- The block right after a reset (70_reset_and_hazards.md R230), what reset leaves unspecified drawn from number `k`
on (R231), with nothing to come and nothing recorded. -/
def State.powerUp (p : Params) (gen k : Nat) : State :=
  { params := p, seq := .idle, done := false, tableValid := false, overread := false, underread := false,
    dropped := false, err := .none, inLen := 0, outCount := 0, outLen := 0, consumed := 0, taddrCtx := 0,
    taddrNode := 0, inLenL := drawBits 32 k, dp := Datapath.free (k + 1), child := Vector.replicate 256 [],
    unbuilt := k + 11, root := drawVector 9 256 (k + 8), scratch := Scratch.free (k + 9), mem := [], raced := [],
    faults := [], agenda := [], reads := [], draws := k + 12, gen := gen }

/-- The machine right after its first reset, with the parameters the vectors use (R230; log 4). -/
def State.reset : State := State.powerUp Params.default 0 0

end Sys2Proof.Machine
end

