-- ==== Sys2Proof/Machine/Ops.lean ====
section
/-! DEFINITION. The named operations over memory and state that every meaning shares: byte cells, byte reads and
writes, draws, and the life of a command: its acceptance, its drop, its completion and its completion with an error
(42_control.md R172, R173; 60_exceptions.md R211, R212). -/

namespace Sys2Proof.Machine

/-- The canonical form of memory: offsets strictly rising, so no repeats. An unlisted byte has no value, so no entry
can equal what an unlisted offset reads as (log 6). -/
abbrev Memory.wf (m : Memory) : Prop := m.Pairwise fun p q => p.1 < q.1

/-- The byte listed at an offset, if one is. -/
def Memory.find : Memory → Nat → Option Byte
  | [], _ => none
  | (k, v) :: rest, a => if k = a then some v else Memory.find rest a

/-- The cells whose offsets lie in `lo .. hi-1`. -/
def Memory.window (m : Memory) (lo hi : Nat) : Memory := m.filter fun p => lo ≤ p.1 && p.1 < hi

/-- Lists byte `v` at offset `a`, keeping the canonical form. -/
def Memory.put : Memory → Nat → Byte → Memory
  | [], a, v => [(a, v)]
  | (k, x) :: rest, a, v =>
    if a < k then (a, v) :: (k, x) :: rest
    else if a = k then (a, v) :: rest
    else (k, x) :: Memory.put rest a v

/-- The byte at a host offset of IN or OUT: the byte last written there, or the free value of a byte that nothing has
written since the last reset (20_memory.md R62, R63; log 6). -/
def State.readByte (s : State) (a : Nat) : Byte := (s.mem.find a).getD (Config.unwrittenByte s.gen a)

/-- Stores one byte at a host offset. -/
def State.writeByte (s : State) (a : Nat) (v : Byte) : State := { s with mem := s.mem.put a v }

/-- Stores bytes at consecutive host offsets, the first at `a` (20_memory.md R64). -/
def State.writeBytes (s : State) (a : Nat) : List Byte → State
  | [] => s
  | v :: rest => (s.writeByte a v).writeBytes (a + 1) rest

/-- The `n` bytes from host offset `a` on as a little-endian value (20_memory.md R64). -/
def State.readLE (s : State) (a n : Nat) : Word := leWord ((List.range n).map fun k => s.readByte (a + k))

/-- STATUS.BUSY: a command is in progress (10_state.md R27, R31). -/
def State.busy (s : State) : Bool := s.seq != .idle

/-- The host offset of IN[o] (20_memory.md R62). -/
def inAddr (o : Nat) : Nat := Config.inBase + o

/-- The host offset of OUT[e] (20_memory.md R63). -/
def outAddr (e : Nat) : Nat := Config.outBase + e

/-- IN[o] as the running command reads it: a draw when the host wrote that byte during the command
(70_reset_and_hazards.md R236), the byte otherwise. `d` is that draw. -/
def State.readIn (s : State) (o : Nat) (d : Byte) : Byte :=
  if inAddr o ∈ s.raced then d else s.readByte (inAddr o)

/-- `Emit(e, v)`: the block's write of output byte e (20_memory.md R71). A byte the host wrote during the command is
left unspecified instead (70_reset_and_hazards.md R236): it takes the draw `d`. -/
def State.emit (s : State) (e : Nat) (v d : Byte) : State :=
  s.writeByte (outAddr e) (if outAddr e ∈ s.raced then d else v)

/-- The pair of children that a BUILD left at node `n` of context `c`, if one did: storage exists for internal nodes
only (10_state.md R21). -/
def State.builtPair (s : State) (c : Byte) (n : Node) : Option (Node × Node) :=
  if n.toNat < Config.nsym then none else s.child[c.toNat][n.toNat - Config.nsym]?

/-- The entry of an array draw that stands for CHILD[c][n][b]: a different one for each (log 5). -/
def unbuiltEntry (c : Byte) (n : Node) (b : Bool) : Nat := 1024 * c.toNat + 2 * n.toNat + b.toNat

/-- CHILD[c][n][b] (10_state.md R21): the built pair's child, or in a slot that was never built the draw taken for it at
the last reset or at the last BUILD's completion, whichever is later (70_reset_and_hazards.md R231, 40_build.md R117;
log 5). -/
def State.childOf (s : State) (c : Byte) (n : Node) (b : Bool) : Node :=
  match s.builtPair c n with
  | some p => if b then p.2 else p.1
  | none => drawEntry 9 s.unbuilt (unbuiltEntry c n b)

/-- ROOT[c] (10_state.md R22). -/
def State.rootOf (s : State) (c : Byte) : Node := s.root[c.toNat]

/-- Leaves the decode datapath's contents unspecified (10_state.md R26: after any command completes). -/
def State.freeDatapath (s : State) : State :=
  { s with dp := Datapath.free s.draws, draws := s.draws + 7 }

/-- The common acceptance effects (42_control.md R172): they also end the error state of the last command
(60_exceptions.md R212; there is no other return). No byte is raced yet: that record belongs to one running command. -/
def State.accept (s : State) : State :=
  { s with done := false, overread := false, underread := false, dropped := false, err := .none, raced := [] }

/-- A CMD write while BUSY = 1 (42_control.md R173). -/
def State.drop (s : State) : State := { s with dropped := true }

/-- Completion of the current command with code `e` (00_scope.md R11; 10_state.md R31, R32, R37): BUSY <- 0 by the
return to IDLE, DONE <- 1, ERR <- e, and the datapath's contents unspecified. -/
def State.complete (s : State) (e : ErrCode) : State :=
  State.freeDatapath { s with seq := .idle, done := true, err := e, raced := [] }

/-- `raise E` (60_exceptions.md R211): completion with an error, the one exception operation of this block. OVERREAD
and UNDERREAD are left at 0. -/
def State.raise (s : State) (e : ErrCode) : State :=
  State.complete { s with overread := false, underread := false } e

/-- A host write to CMD (42_control.md R172, R173): dropped while BUSY = 1, otherwise accepted and handed to the
acceptance part `act` of the command the word selects. -/
def State.submit (s : State) (act : State → State) : State :=
  if s.busy then s.drop else act s.accept

/-- Records a model-level fault in the set that no later step clears (60_exceptions.md R214). -/
def State.recordFault (s : State) (f : Fault) : State :=
  if f ∈ s.faults then s else { s with faults := f :: s.faults }

end Sys2Proof.Machine
end

