-- ==== Sys2Proof/Machine/Operands.lean ====
section
/-! DEFINITION. The operand forms: the frequency image, the block header, the bits of the stream and the fields of
TADDR (30_encoding.md R93 to R97; 10_state.md R42). -/

namespace Sys2Proof.Machine

/-- The count of symbol `j` in context `c` of the frequency image, IN[256*c + j] (30_encoding.md R93). A byte the
host raced is entry `j` of this step's draw. -/
def State.frequency (s : State) (c j : Nat) : Byte := s.readIn (256 * c + j) (drawEntry 8 s.draws j)

/-- Row `c` of the frequency image, in symbol order (30_encoding.md R93). Each count is `State.frequency`
(`frequencyRow_eq` in Laws/Ops.lean): the memory is cut to the row's own cells first, for speed alone. -/
def State.frequencyRow (s : State) (c : Nat) : List Byte :=
  let cut := { s with mem := s.mem.window (inAddr (256 * c)) (inAddr (256 * c + 256)) }
  (List.range Config.nsym).map fun j => cut.frequency c j

/-- The header's `count`, from IN[0..3], little-endian and unsigned (30_encoding.md R94, 41_decode.md R142). -/
def State.headerCount (s : State) : Word := s.readLE (inAddr 0) Config.hdr

/-- The bit of a byte that slot `slot` uses, least significant first (30_encoding.md R95). -/
def slotBit (byte : Byte) (slot : BitVec 3) : Bool := byte.getLsbD slot.toNat

/-- TADDR as it reads: NODE in bits 24:16, CTX in bits 7:0, the rest 0 (10_state.md R42). -/
def State.taddrWord (s : State) : Word := (s.taddrNode.setWidth 32 <<< 16) ||| s.taddrCtx.setWidth 32

/-- A write of `v` to TADDR: bits 7:0 and 24:16 are stored, the reserved bits dropped (10_state.md R42). -/
def State.setTaddr (s : State) (v : Word) : State :=
  { s with taddrCtx := v.extractLsb' 0 8, taddrNode := v.extractLsb' 16 9 }

end Sys2Proof.Machine
end

