-- ==== Sys2Proof/Machine/Build.lean ====
section
/-! DEFINITION. BUILD: its acceptance and the build of one context (40_build.md R110 to R118). -/

namespace Sys2Proof.Machine

/-- CNT[i] (10_state.md R25). -/
def Scratch.count (sc : Scratch) (i : Nat) : Half := sc.cnt[i]?.getD 0

/-- USED[i] (10_state.md R25). -/
def Scratch.isUsed (sc : Scratch) (i : Nat) : Bool := sc.used[i]?.getD true

/-- USED[i] <- 1. -/
def Scratch.mark (sc : Scratch) (i : Nat) : Scratch := { sc with used := sc.used.setIfInBounds i true }

/-- CNT[i] <- v. -/
def Scratch.setCount (sc : Scratch) (i : Nat) (v : Half) : Scratch := { sc with cnt := sc.cnt.setIfInBounds i v }

/-- InitContext (40_build.md R111): the row's counts in CNT[0..255], everything else cleared. -/
def initContext (row : List Byte) : Scratch :=
  { cnt := padded 0 511 (row.map fun b => b.setWidth 16), used := Vector.replicate 511 false }

/-- One turn of Pick's search (40_build.md R112): a node of count `count` and mark `used` replaces the best node so far
when it is unused, its count is not 0 and is strictly below the best count. -/
def pickTurn (best : Option (Nat × Half)) : (Half × Bool) × Nat → Option (Nat × Half)
  | ((count, used), i) =>
    if used then best
    else if count = 0 then best
    else match best with
      | none => some (i, count)
      | some (b, least) => if count < least then some (i, count) else some (b, least)

/-- The node Pick(n) finds (40_build.md R112): the search over nodes 0..n-1 in increasing order. -/
def pickNode (sc : Scratch) (n : Nat) : Option Nat :=
  ((((sc.cnt.toList.zip sc.used.toList).take n).zipIdx).foldl pickTurn none).map (·.1)

/-- A context under construction: the pairs built so far, node 256 first, and the scratch. -/
structure Growth where
  pairs : List (Node × Node)
  scratch : Scratch
deriving DecidableEq, Repr

/-- numNodes, the source's count of node numbers in use (40_build.md R110). -/
def Growth.numNodes (g : Growth) : Nat := Config.nsym + g.pairs.length

/-- The merge of picked nodes `a` and `b` (40_build.md R113): the first pick becomes child 0, the second child 1, and
the new node's count is the 16-bit sum (R115). -/
def Growth.link (g : Growth) (a b : Nat) : Growth :=
  { pairs := g.pairs ++ [(BitVec.ofNat 9 a, BitVec.ofNat 9 b)],
    scratch := g.scratch.setCount g.numNodes (g.scratch.count a + g.scratch.count b) }

/-- The merge loop (40_build.md R113), `fuel` bounding its turns: it stops at node 511, or at the first Pick that finds
nothing; a first pick stays marked when the second fails (R112). -/
def mergeLoop : Nat → Growth → Growth
  | 0, g => g
  | fuel + 1, g =>
    if g.numNodes = Config.maxNodes then g
    else match pickNode g.scratch g.numNodes with
      | none => g
      | some a =>
        let marked := { g with scratch := g.scratch.mark a }
        match pickNode marked.scratch marked.numNodes with
        | none => marked
        | some b => mergeLoop fuel (Growth.link { marked with scratch := marked.scratch.mark b } a b)

/-- The build of one context from its row (40_build.md R110, R111, R113). A build makes at most 255 merges (R114), so
256 turns reach the loop's own end. -/
def buildContext (row : List Byte) : Growth := mergeLoop 256 { pairs := [], scratch := initContext row }

/-- Leaves the scratch's contents unspecified (10_state.md R25: after BUILD completes). -/
def State.freeScratch (s : State) : State := { s with scratch := Scratch.free s.draws, draws := s.draws + 2 }

/-- Leaves the contents of the slots of CHILD that were never built unspecified (40_build.md R117: after the BUILD). -/
def State.freeUnbuilt (s : State) : State := { s with unbuilt := s.draws, draws := s.draws + 1 }

/-- BUILD's completion (40_build.md R117, R118). -/
def State.buildComplete (s : State) : State :=
  State.complete (State.freeUnbuilt (State.freeScratch { s with tableValid := true })) .none

/-- The build of context `c` written to the table and the scratch: its pairs, and ROOT[c] <- numNodes - 1
(40_build.md R113, R116). The draw serves the bytes of the row that the host raced. -/
def State.storeContext (s : State) (c : Byte) : State :=
  let g := buildContext (s.frequencyRow c.toNat)
  { s with child := s.child.set c.toNat g.pairs, root := s.root.set c.toNat (BitVec.ofNat 9 (g.numNodes - 1)),
           scratch := g.scratch, draws := s.draws + 1 }

/-- The block step of BUILD(c) (10_state.md R27, 40_build.md R110): builds context c and moves to BUILD(c+1), or after
context 255 completes. -/
def State.buildStep (s : State) (c : Byte) : State :=
  if c = 255 then (s.storeContext c).buildComplete else { s.storeContext c with seq := .build (c + 1) }

/-- BUILD's acceptance part (40_build.md R110): refused with TABLE_PRESENT while a table is valid, otherwise BUSY <- 1
and the sequencer enters BUILD(0). -/
def State.buildAccept (s : State) : State :=
  if s.tableValid then s.raise .tablePresent else { s with seq := .build 0 }

/-- BUILD (40_build.md R110): the host's write of its word to CMD. The build itself is the block steps that follow. -/
def execBuild (s : State) : Host.Outcome State Fault Refusal := .next (s.submit State.buildAccept)

end Sys2Proof.Machine
end

