-- ==== Sys2Proof/Machine/Control.lean ====
section
/-! DEFINITION. RELEASE and the illegal command word (42_control.md R170, R171). -/

namespace Sys2Proof.Machine

/-- RELEASE's acceptance part (42_control.md R170): TABLE_VALID <- 0 and completion in the accepting transaction; CHILD
and ROOT are not cleared. -/
def State.releaseAccept (s : State) : State := State.complete { s with tableValid := false } .none

/-- RELEASE (42_control.md R170): the host's write of its word to CMD. -/
def execRelease (s : State) : Host.Outcome State Fault Refusal := .next (s.submit State.releaseAccept)

/-- An illegal word's acceptance part (42_control.md R171): BAD_CMD in the accepting transaction. -/
def State.illegalAccept (s : State) : State := s.raise .badCmd

/-- The host's write of an illegal word to CMD (30_encoding.md R92, 42_control.md R171). -/
def execIllegal (s : State) : Host.Outcome State Fault Refusal := .next (s.submit State.illegalAccept)

end Sys2Proof.Machine
end

