-- ==== Sys2Proof/Machine/Flags.lean ====
section
/-! DEFINITION. Every flag computation: the code of an error, the two end-of-block diagnostics and the STATUS word
(10_state.md R30 to R37; 41_decode.md R152; 60_exceptions.md R201). -/

namespace Sys2Proof.Machine

/-- The number of an error code (60_exceptions.md R201). -/
def ErrCode.code : ErrCode → BitVec 4
  | .none => 0
  | .badCmd => 1
  | .noTable => 2
  | .tablePresent => 3
  | .inLenRange => 4
  | .shortBlock => 5
  | .outRange => 6
  | .degenerateRoot => 7
  | .inputExhausted => 8

/-- OVERREAD: more bytes consumed than declared, by more than the slack (41_decode.md R152). -/
def overreadFlag (consumed : Count21) (inLenL : Word) : Bool :=
  decide (consumed.toNat > inLenL.toNat + Config.slack)

/-- UNDERREAD: fewer bytes consumed than declared (41_decode.md R152). -/
def underreadFlag (consumed : Count21) (inLenL : Word) : Bool := decide (consumed.toNat < inLenL.toNat)

/-- A flag at bit `k` of a word. -/
def flagBit (b : Bool) (k : Nat) : Word := (if b then 1#32 else 0#32) <<< k

/-- STATUS as it reads (10_state.md R30). -/
def State.statusWord (s : State) : Word :=
  flagBit s.busy 0 ||| flagBit s.done 1 ||| flagBit s.tableValid 2 ||| flagBit s.overread 3 |||
    flagBit s.underread 4 ||| flagBit s.dropped 5 ||| (s.err.code.setWidth 32 <<< 8)

end Sys2Proof.Machine
end

