-- ==== Sys2Proof/Machine/Decompress.lean ====
section
/-! DEFINITION. DECODE: its acceptance checks and the walk of the block, one bit slot at a time
(41_decode.md R140 to R154). -/

namespace Sys2Proof.Machine

/-- The walk's start (41_decode.md R144): `OFF <- 4; REM <- count; E <- 0; CTX <- 0; NODE <- ROOT[0]`, at slot 0 with
no byte fetched yet. -/
def State.walkStart (s : State) (count : Word) : State :=
  { s with seq := .decode,
           dp := { s.dp with off := 4, rem := count, e := 0, ctx := 0, node := s.rootOf 0, slot := 0 } }

/-- The last part of DECODE's acceptance (41_decode.md R142, R143): the header's count, and OUT_RANGE or the walk. -/
def State.decodeHeader (s : State) : State :=
  let count := s.headerCount
  let s := { s with outCount := count }
  if count.toNat > s.params.outSize then State.raise { s with consumed := 4 } .outRange else s.walkStart count

/-- The checks of DECODE's acceptance, in their order (41_decode.md R141, 60_exceptions.md R210). -/
def State.decodeChecks (s : State) : State :=
  if s.tableValid = false then s.raise .noTable
  else if s.inLenL.toNat > s.params.inSize then s.raise .inLenRange
  else if s.inLenL.toNat < Config.hdr then s.raise .shortBlock
  else s.decodeHeader

/-- DECODE's acceptance part (41_decode.md R141): latches IN_LEN, zeroes the result registers and checks. -/
def State.decodeAccept (s : State) : State :=
  State.decodeChecks { s with inLenL := s.inLen, outCount := 0, outLen := 0, consumed := 0 }

/-- DECODE (41_decode.md R140): the host's write of its word to CMD. The walk itself is the block steps that follow. -/
def execDecode (s : State) : Host.Outcome State Fault Refusal := .next (s.submit State.decodeAccept)

/-- The completion registers of a walk (41_decode.md R151): OUT_LEN <- E, CONSUMED <- OFF. -/
def State.walkResults (s : State) : State := { s with outLen := s.dp.e, consumed := s.dp.off }

/-- A walk's success (41_decode.md R151, R152). -/
def State.walkFinish (s : State) : State :=
  let s := s.walkResults
  State.complete { s with overread := overreadFlag s.consumed s.inLenL,
                          underread := underreadFlag s.consumed s.inLenL } .none

/-- A walk's error (41_decode.md R151, 60_exceptions.md R211). -/
def State.walkError (s : State) (e : ErrCode) : State := s.walkResults.raise e

/-- `Fetch(o)` below IN_SIZE (20_memory.md R71): the block's byte below IN_LEN_L, a draw past it. -/
def State.fetch (s : State) (o : Nat) : Byte :=
  if o < s.inLenL.toNat then s.readIn o (drawBits 8 s.draws) else drawBits 8 s.draws

/-- The bit step of a slot and the move to the next slot (41_decode.md R149): `NODE <- CHILD[CTX][NODE][BYTE[SLOT]]`. -/
def State.bitStep (s : State) : State :=
  { s with dp := { s.dp with node := s.childOf s.dp.ctx s.dp.node (slotBit s.dp.byte s.dp.slot),
                             slot := s.dp.slot + 1 } }

/-- The emission of a leaf (41_decode.md R146): `Emit(E, NODE[7:0])`, E <- E + 1, REM <- REM - 1. -/
def State.emitLeaf (s : State) : State :=
  let s' := s.emit s.dp.e.toNat (s.dp.node.setWidth 8) (drawBits 8 s.draws)
  { s' with dp := { s'.dp with e := s.dp.e + 1, rem := s.dp.rem - 1 }, draws := s.draws + 1 }

/-- The context switch (41_decode.md R147): `CTX <- NODE[7:0]; NODE <- ROOT[CTX]`. -/
def State.switchContext (s : State) : State :=
  let c : Byte := s.dp.node.setWidth 8
  { s with dp := { s.dp with ctx := c, node := s.rootOf c } }

/-- One bit slot (41_decode.md R145 to R149): the leaf test, with emission, end and context switch, and then the bit. -/
def State.slotStep (s : State) : State :=
  if s.dp.node.toNat < Config.nsym then
    let s := s.emitLeaf
    if s.dp.rem = 0 then s.walkFinish
    else
      let s := s.switchContext
      if s.dp.node.toNat < Config.nsym then s.walkError .degenerateRoot else s.bitStep
  else s.bitStep

/-- The byte fetch at the top of a pass (41_decode.md R145): `BYTE <- Fetch(OFF); OFF <- OFF + 1`. -/
def State.fetchByte (s : State) : State :=
  { s with dp := { s.dp with byte := s.fetch s.dp.off.toNat, off := s.dp.off + 1 }, draws := s.draws + 1 }

/-- A block step of DECODE: one bit slot. Before slot 0 comes the top of the outer loop (41_decode.md R140): the test of
REM, the end of the buffer (R153) and the fetch (R145). -/
def State.decodeStep (s : State) : State :=
  if s.dp.slot = 0 then
    if s.dp.rem = 0 then s.walkFinish
    else if s.params.inSize ≤ s.dp.off.toNat then s.walkError .inputExhausted
    else s.fetchByte.slotStep
  else s.slotStep

end Sys2Proof.Machine
end

