-- ==== Sys2Proof/Machine/Dispatch.lean ====
section
/-! DEFINITION. The meaning of every instruction: one arm per constructor of `Instr`. -/

namespace Sys2Proof.Machine

-- exec i s: what the host's write of i's word to CMD does in state s.
def exec (i : Instr) (s : State) : Host.Outcome State Fault Refusal :=
  match i with
  | .build => Sys2Proof.Machine.execBuild s
  | .decode => Sys2Proof.Machine.execDecode s
  | .release => Sys2Proof.Machine.execRelease s

end Sys2Proof.Machine
end

