-- ==== Sys2Proof/Machine/Bus.lean ====
section
/-! DEFINITION. The host's bus transactions: which are admitted, what a register reads as, what a write does
(20_memory.md R61, R64, R66 to R70; 42_control.md R172 to R176; 70_reset_and_hazards.md R236, R237). -/

namespace Sys2Proof.Machine

/-- The regions of the host space that an access can reach (20_memory.md R61). -/
inductive Region where
  | registers | inBuf | outBuf
deriving DecidableEq, Repr

/-- The region an access of `n` bytes at offset `a` is admitted to (20_memory.md R66, R68): naturally aligned, wholly
inside one region, four bytes wide in the register region. `none` is a bus error (R67). -/
def regionOf (p : Params) (a n : Nat) : Option Region :=
  if a % n ≠ 0 then none
  else if a + n ≤ Config.regEnd then (if n = 4 then some .registers else none)
  else if Config.inBase ≤ a ∧ a + n ≤ Config.inBase + p.inSize then some .inBuf
  else if Config.outBase ≤ a ∧ a + n ≤ Config.outBase + p.outSize then some .outBuf
  else none

/-- What TDATA reads as while BUSY = 0 (10_state.md R43). An unspecified value is the draw of this read. -/
def State.tdataWord (s : State) : Word :=
  if s.tableValid = false then drawBits 32 s.draws
  else if s.taddrNode.toNat < Config.nsym ∨ s.taddrNode.toNat = Config.maxNodes then 0
  else if s.taddrNode.toNat ≤ (s.rootOf s.taddrCtx).toNat then
    ((s.childOf s.taddrCtx s.taddrNode true).setWidth 32 <<< 16) |||
      (s.childOf s.taddrCtx s.taddrNode false).setWidth 32
  else drawBits 32 s.draws

/-- What TROOT reads as while BUSY = 0 (10_state.md R44). -/
def State.trootWord (s : State) : Word :=
  if s.tableValid then (s.rootOf s.taddrCtx).setWidth 32 else drawBits 32 s.draws

/-- A value that is exact while BUSY = 0 and a draw while BUSY = 1 (70_reset_and_hazards.md R237). -/
def State.unlessBusy (s : State) (v : Word) : Word := if s.busy then drawBits 32 s.draws else v

/-- What the register at an offset reads as (10_state.md R28 to R47, 42_control.md R175). -/
def State.readRegister (s : State) (a : Nat) : Word :=
  if a = 0x004 then s.statusWord
  else if a = 0x008 then s.inLen
  else if a = 0x00C then s.unlessBusy s.outCount
  else if a = 0x010 then s.unlessBusy (s.outLen.setWidth 32)
  else if a = 0x014 then s.unlessBusy (s.consumed.setWidth 32)
  else if a = 0x018 then s.taddrWord
  else if a = 0x01C then s.unlessBusy s.tdataWord
  else if a = 0x020 then s.unlessBusy s.trootWord
  else if a = 0x024 then BitVec.ofNat 32 s.params.inSize
  else if a = 0x028 then BitVec.ofNat 32 s.params.outSize
  else 0

/-- What a read of `n` bytes of IN or OUT returns: the bytes while BUSY = 0, a draw of that width while BUSY = 1
(42_control.md R176, 70_reset_and_hazards.md R237). -/
def State.readBuffer (s : State) (a n : Nat) : Word :=
  if s.busy then (drawBits (8 * n) s.draws).setWidth 32 else s.readLE a n

/-- The host receives `data` from its read; draw number `draws` is used up by it (log 7). -/
def State.returnData (s : State) (a : Offset) (n : Nat) (data : Word) : State :=
  { s with reads := { a := a, n := n, data := data } :: s.reads, draws := s.draws + 1 }

/-- `MemRead(a, n)` (20_memory.md R66, R70): no effect on the block. -/
def State.hostRead (s : State) (a : Offset) (n : Nat) : State :=
  match regionOf s.params a.toNat n with
  | some .registers => s.returnData a n (s.readRegister a.toNat)
  | some .inBuf => s.returnData a n (s.readBuffer a.toNat n)
  | some .outBuf => s.returnData a n (s.readBuffer a.toNat n)
  | none => s.recordFault (.busError a n)

/-- A host write to IN or OUT (42_control.md R176): the bytes are stored; while BUSY = 1 the fault HostRace is recorded
and the bytes' offsets are remembered for the running command (70_reset_and_hazards.md R236). -/
def State.writeBuffer (s : State) (a : Offset) (bytes : List Byte) : State :=
  if s.busy then
    State.recordFault { s.writeBytes a.toNat bytes with
                          raced := (List.range bytes.length).map (a.toNat + ·) ++ s.raced } (.hostRace a)
  else s.writeBytes a.toNat bytes

/-- A word written to CMD (42_control.md R172, R173): the command it encodes, or the illegal word. -/
def submitWord (w : Word) (s : State) : Host.Outcome State Fault Refusal :=
  match decodeWord w with
  | .ok i => exec i s
  | .error _ => execIllegal s

/-- A 32-bit write to a register (42_control.md R172 to R174): CMD, IN_LEN and TADDR take it, every other register
ignores it (20_memory.md R70). -/
def writeRegister (a : Nat) (v : Word) (s : State) : Host.Outcome State Fault Refusal :=
  if a = 0x000 then submitWord v s
  else if a = 0x008 then .next { s with inLen := v }
  else if a = 0x018 then .next (s.setTaddr v)
  else .next s

/-- `MemWrite(a, n, v)` (20_memory.md R66). -/
def hostWrite (a : Offset) (n : Nat) (v : Word) (s : State) : Host.Outcome State Fault Refusal :=
  match regionOf s.params a.toNat n with
  | some .registers => writeRegister a.toNat v s
  | some .inBuf => .next (s.writeBuffer a (leBytes n v))
  | some .outBuf => .next (s.writeBuffer a (leBytes n v))
  | none => .next (s.recordFault (.busError a n))

/-- One host transaction (20_memory.md R66, 30_encoding.md R99). -/
def hostTxn (t : HostTxn) (s : State) : Host.Outcome State Fault Refusal :=
  match t with
  | .rd8 a => .next (s.hostRead a 1)
  | .rd16 a => .next (s.hostRead a 2)
  | .rd32 a => .next (s.hostRead a 4)
  | .wr8 a v => hostWrite a 1 (v.setWidth 32) s
  | .wr16 a v => hostWrite a 2 (v.setWidth 32) s
  | .wr32 a v => hostWrite a 4 v s

/-- The pseudo-instruction `CMD X` (30_encoding.md R99). -/
def cmdEvents (i : Instr) : List Event := [.host (.wr32 0 (encode i))]

/-- The pseudo-instruction `LOADIN o, b0 b1 ...` (30_encoding.md R99): one byte write per listed byte, in order. A byte
whose offset 0x10_0000 + o + i lies past the 22-bit host space gives no event: the platform decides what lies there, not
the block (20_memory.md R60, R61; DESIGN CHOICE, log 16). -/
def loadInEvents (o : Nat) : List Byte → List Event
  | [] => []
  | b :: rest =>
    if inAddr o < 2 ^ 22 then .host (.wr8 (BitVec.ofNat 22 (inAddr o)) b) :: loadInEvents (o + 1) rest
    else loadInEvents (o + 1) rest

end Sys2Proof.Machine
end

