-- ==== Sys2Proof/Machine/Sequencer.lean ====
section
/-! DEFINITION. What the block, a waiting host and the platform do when it is their turn: a block step, a poll and a
reset (10_state.md R27; 30_encoding.md R99; 70_reset_and_hazards.md R230 to R232). -/

namespace Sys2Proof.Machine

/-- One block step (00_scope.md R7, 10_state.md R27). In IDLE there is no step to make and nothing changes. -/
def State.blockStep (s : State) : State :=
  match s.seq with
  | .idle => s
  | .build c => s.buildStep c
  | .decode => s.decodeStep

/-- One poll of WAIT (30_encoding.md R99): a read of STATUS; while it shows BUSY = 1 the block moves and the host polls
again (log 10). -/
def State.poll (s : State) : State :=
  let t := s.hostRead 0x004 4
  if s.busy then { t with agenda := .block :: .wait :: t.agenda } else t

/-- A platform reset at any point of a run (70_reset_and_hazards.md R230 to R232): the state of `State.powerUp` with
fresh draws for what reset leaves unspecified; the fault set stays (60_exceptions.md R214), and so do the host's
remaining events and what it has read. -/
def State.platformReset (s : State) : State :=
  { State.powerUp s.params (s.gen + 1) s.draws with
      faults := s.faults, agenda := s.agenda, reads := s.reads }

/-- What one event does to the state it is taken from. -/
def runEvent (e : Event) (s : State) : Host.Outcome State Fault Refusal :=
  match e with
  | .host t => hostTxn t s
  | .wait => .next s.poll
  | .block => .next s.blockStep
  | .reset => .next s.platformReset

/-- The agenda entry by which the host submits a command word: WR32 CMD, w (30_encoding.md R99). -/
def submitEvent (w : Word) : Event := .host (.wr32 0x000 w)

end Sys2Proof.Machine
end

