-- ==== Sys2Proof/Machine/Step.lean ====
section
/-! DEFINITION. One step of the machine, and the placing of a command where the next step takes it. -/

namespace Sys2Proof.Machine

/-- One step: the next event of the agenda, or a block step when none is left (20_memory.md R72: an interleaving of host
transactions and block steps; 70_reset_and_hazards.md R240: a command in progress eventually completes; log 1). -/
def step (s : State) : Host.Outcome State Fault Refusal :=
  match s.agenda with
  | [] => .next s.blockStep
  | e :: rest => runEvent e { s with agenda := rest }

/-- `s` with the host about to write the word `w` to CMD (log 11). -/
def State.withFetchWord (s : State) (nbits w : Nat) : State :=
  { s with agenda := submitEvent (BitVec.ofNat 32 (w % 2 ^ nbits)) :: s.agenda }

end Sys2Proof.Machine
end

