-- ==== Sys2Proof/Safety.lean ====
section
/-! DEFINITION. The terms claims use: a safe run and its end (60_exceptions.md R214, 70_reset_and_hazards.md R242), the
block working alone, the built table (40_build.md R116, R119), the codes of a context (R120) and the legal states. -/

namespace Sys2Proof.Machine

/-- No model-level fault is recorded: the premise of a claim about a host program (60_exceptions.md R214). -/
def State.faultFree (s : State) : Prop := s.faults = []

/-- The end of a run (70_reset_and_hazards.md R242): the host has done its last transaction and BUSY = 0. -/
def State.runEnded (s : State) : Prop := s.agenda = [] ∧ s.busy = false

/-- `n` block steps in a row, with no host transaction between them. -/
@[irreducible] def runBlock : Nat → State → State
  | 0, s => s
  | n + 1, s => runBlock n s.blockStep

/-- An offset of the IN or OUT window (20_memory.md R61 to R63). -/
def Params.window (p : Params) (a : Nat) : Prop :=
  (Config.inBase ≤ a ∧ a < Config.inBase + p.inSize) ∨ (Config.outBase ≤ a ∧ a < Config.outBase + p.outSize)

/-- Children are numbered below their parent (40_build.md R119): the k-th pair belongs to node 256 + k. -/
def ChildrenBelow (pairs : List (Node × Node)) : Prop :=
  ∀ k (h : k < pairs.length), pairs[k].1.toNat < Config.nsym + k ∧ pairs[k].2.toNat < Config.nsym + k

/-- Context `c` is as a BUILD leaves it: at most 255 internal nodes, the root the last node number in use
(40_build.md R116), children below their parents (R119). -/
def State.TreeBuilt (s : State) (c : Byte) : Prop :=
  s.child[c.toNat].length ≤ 255 ∧ (s.rootOf c).toNat = 255 + s.child[c.toNat].length ∧
    ChildrenBelow s.child[c.toNat]

/-- The walk invariant and the ranges of the walk's registers (41_decode.md R143, R150, R155). -/
structure State.Walking (s : State) : Prop where
  table : s.tableValid = true
  declared : Config.hdr ≤ s.inLenL.toNat ∧ s.inLenL.toNat ≤ s.params.inSize
  owed : s.outCount.toNat ≤ s.params.outSize ∧ s.dp.e.toNat + s.dp.rem.toNat = s.outCount.toNat
  offset : Config.hdr ≤ s.dp.off.toNat ∧ s.dp.off.toNat ≤ s.params.inSize
  midByte : s.dp.slot ≠ 0 → s.dp.rem ≠ 0 ∧ Config.hdr < s.dp.off.toNat
  node : s.dp.node.toNat < Config.nsym ∨ s.dp.node.toNat ≤ (s.rootOf s.dp.ctx).toNat

/-- The legal states: what holds at reset and what every step keeps. -/
structure State.Legal (s : State) : Prop where
  /-- The parameters are legal (00_scope.md R6). -/
  params : s.params.wellFormed = true
  /-- Memory keeps its canonical form. -/
  memWf : Memory.wf s.mem
  /-- Memory lists bytes of IN and OUT only (20_memory.md R61). -/
  memWindow : ∀ cell ∈ s.mem, Params.window s.params cell.1
  /-- A valid table is a built table (10_state.md R23, 40_build.md R116, R119). -/
  table : s.tableValid = true → ∀ c, s.TreeBuilt c
  /-- While BUSY = 1, DONE, ERR, OVERREAD and UNDERREAD read 0 (10_state.md R32 to R37). -/
  busyFlags : s.busy = true → s.done = false ∧ s.err = .none ∧ s.overread = false ∧ s.underread = false
  /-- The diagnostics come with ERR = NONE, and never both (41_decode.md R152). -/
  diagnostics : (s.overread = true ∨ s.underread = true) →
    s.err = .none ∧ s.done = true ∧ ¬ (s.overread = true ∧ s.underread = true)
  /-- During a BUILD no table is valid and the contexts before the current one are built (10_state.md R23, R33). -/
  building : ∀ c, s.seq = .build c → s.tableValid = false ∧ ∀ d : Byte, d.toNat < c.toNat → s.TreeBuilt d
  /-- During a DECODE the walk's ranges and invariant hold (41_decode.md R150, R155). -/
  walking : s.seq = .decode → s.Walking
  /-- The result registers are in the range of their windows (10_state.md R40, R41). -/
  results : s.outLen.toNat ≤ s.params.outSize ∧ s.consumed.toNat ≤ s.params.inSize
  /-- Raced bytes are recorded only while a command runs (70_reset_and_hazards.md R236). -/
  racedIdle : s.busy = false → s.raced = []
  /-- The fault set has no repeats (60_exceptions.md R214). -/
  faultSet : s.faults.Nodup

/-- `code` is the path of child bits from node `n` down to leaf `b` in a context's built pairs (40_build.md R120). -/
inductive CodePath (pairs : List (Node × Node)) : Node → List Bool → Byte → Prop where
  | leaf (b : Byte) : CodePath pairs (b.setWidth 9) [] b
  | node (n : Node) (p : Node × Node) (bit : Bool) (code : List Bool) (b : Byte) (internal : Config.nsym ≤ n.toNat)
      (built : pairs[n.toNat - Config.nsym]? = some p)
      (below : CodePath pairs (if bit then p.2 else p.1) code b) : CodePath pairs n (bit :: code) b

/-- `bits` are the codes of the bytes `x` in stream order, each under the context of the byte before it, the first under
`c`; every context that decodes a symbol has a root that is an internal node (40_build.md R120, 41_decode.md R157). -/
def State.Encodes (s : State) : Byte → List Byte → List Bool → Prop
  | _, [], bits => bits = []
  | c, b :: rest, bits => ∃ code tail, bits = code ++ tail ∧ Config.nsym ≤ (s.rootOf c).toNat ∧
      CodePath s.child[c.toNat] (s.rootOf c) code b ∧ s.Encodes b rest tail

/-- How many symbols of a frequency row have a nonzero count: the k of 40_build.md R114. -/
def nonzeroSymbols (row : List Byte) : Nat := row.countP fun b => b != 0

/-- The sum of a frequency row (40_build.md R115). -/
def rowSum (row : List Byte) : Nat := (row.map BitVec.toNat).sum

end Sys2Proof.Machine
end

