-- ==== Sys2Proof/Certificates/Slice0/Obligations.lean ====
section
/-! DEFINITION. The statements for the provers, in the order of spec/: encodings, the step, BUILD, DECODE, RELEASE and
the control of commands, the host's bus, reset, and the rules of the whole machine. -/

open Sys2Proof Sys2Proof.Machine

/-! ## Encodings -/

/-- The words of 30_encoding.md R91 decode to their commands, and words R92 calls illegal are refused by name. -/
def Obligations.CommandWordsDecodeAsAssigned : Prop :=
  decodeWord 0x00000001#32 = .ok .build ∧ decodeWord 0x00000002#32 = .ok .decode ∧
    decodeWord 0x00000003#32 = .ok .release ∧ decodeWord 0x00000000#32 = .error (.unassignedOp 0) ∧
    decodeWord 0x00000004#32 = .error (.unassignedOp 4) ∧ decodeWord 0x0000000F#32 = .error (.unassignedOp 15) ∧
    decodeWord 0x00000011#32 = .error (.reservedBits 1) ∧ decodeWord 0x80000001#32 = .error (.reservedBits 0x8000000)

/-- 30_encoding.md R90, R91, R96: each command is exactly one word, its four bytes decode to it and to nothing else, and
no other word and no other bytes decode to it. -/
def Obligations.DecodeAndEncodeAgree : Prop :=
  (∀ (w : Word) (i : Instr), decodeWord w = .ok i ↔ w = encode i) ∧
    (∀ (bs : List Byte) (i : Instr) (rest : List Byte), decodeBytes bs = .ok (i, rest) ↔ bs = encodeBytes i ++ rest) ∧
    (∀ i : Instr, decodeTableWord 32 (encode i).toNat = some i)

/-! ## The step -/

/-- When the host's next event is a write of a word to CMD and that word decodes to a command, the step runs that
command on the state with the event taken off the agenda; and `withFetchWord` places such a write. -/
def Obligations.StepRunsTheDecodedCommand : Prop :=
  (∀ (s : State) (w : Word) (rest : List Event) (i : Instr), s.agenda = submitEvent w :: rest → decodeWord w = .ok i →
      step s = exec i { s with agenda := rest }) ∧
    ∀ (s : State) (i : Instr), step (s.withFetchWord 32 (encode i).toNat) = exec i s

/-- 30_encoding.md R92, 42_control.md R171, 60_exceptions.md R202: an illegal word written while BUSY = 0 completes at
once with ERR = BAD_CMD; beyond the acceptance effects and the datapath's unspecified contents (10_state.md R26) nothing
changes. -/
def Obligations.IllegalCommandWordIsBadCmd : Prop :=
  ∀ (s : State) (w : Word) (rest : List Event) (e : DecodeError), s.agenda = submitEvent w :: rest → s.busy = false →
    decodeWord w = .error e →
    ∃ (d : Datapath) (k : Nat), step s = .next
      { s with agenda := rest, done := true, err := .badCmd, overread := false, underread := false, dropped := false,
               raced := [], dp := d, draws := k }

/-- 42_control.md R173: a CMD write while BUSY = 1, whatever its word, sets DROPPED and changes nothing else. -/
def Obligations.BusyCommandWriteIsDropped : Prop :=
  (∀ (s : State) (w : Word) (rest : List Event), s.agenda = submitEvent w :: rest → s.busy = true →
      step s = .next { s with agenda := rest, dropped := true }) ∧
    ∀ (s : State) (i : Instr), s.busy = true → exec i s = .next { s with dropped := true }

/-- 42_control.md R172: a command accepted while BUSY = 0 clears OVERREAD, UNDERREAD and DROPPED, and either completes
in that transaction, with DONE = 1, or leaves BUSY = 1 with DONE = 0 and ERR = 0. -/
def Obligations.AcceptedCommandClearsFlags : Prop :=
  ∀ (s : State) (i : Instr), s.busy = false → ∃ t, exec i s = .next t ∧ t.overread = false ∧ t.underread = false ∧
    t.dropped = false ∧ ((t.busy = false ∧ t.done = true) ∨ (t.busy = true ∧ t.done = false ∧ t.err = .none))

/-- The frame of the accepting transaction (40_build.md R110, 41_decode.md R140, 42_control.md R170): no command's CMD
write changes a byte of IN or OUT, CHILD, ROOT, the scratch, IN_LEN, TADDR, the parameters, the fault set or the host's
own; TABLE_VALID is changed by RELEASE alone, and IN_LEN_L and the result registers by DECODE alone. -/
def Obligations.CommandWriteFrame : Prop :=
  ∀ (s t : State) (i : Instr), exec i s = .next t →
    (∀ a, t.readByte a = s.readByte a) ∧ t.child = s.child ∧ t.unbuilt = s.unbuilt ∧ t.root = s.root ∧ t.scratch = s.scratch ∧
      t.inLen = s.inLen ∧ t.taddrCtx = s.taddrCtx ∧ t.taddrNode = s.taddrNode ∧ t.params = s.params ∧
      t.faults = s.faults ∧ t.agenda = s.agenda ∧ t.reads = s.reads ∧ t.gen = s.gen ∧
      (i ≠ .release → t.tableValid = s.tableValid) ∧
      (i ≠ .decode → t.inLenL = s.inLenL ∧ t.outCount = s.outCount ∧ t.outLen = s.outLen ∧ t.consumed = s.consumed)

/-! ## BUILD -/

/-- 60_exceptions.md R204: BUILD accepted while TABLE_VALID = 1 is refused with TABLE_PRESENT; the table and the result
registers are unchanged. -/
def Obligations.BuildRefusedWhileTableValid : Prop :=
  ∀ s : State, s.busy = false → s.tableValid = true →
    ∃ (d : Datapath) (k : Nat), exec .build s = .next
      { s with done := true, err := .tablePresent, overread := false, underread := false, dropped := false,
               raced := [], dp := d, draws := k }

/-- 40_build.md R110: BUILD accepted without a table sets BUSY and enters BUILD(0); nothing else but the acceptance
effects. -/
def Obligations.BuildAcceptedEntersContextZero : Prop :=
  ∀ s : State, s.busy = false → s.tableValid = false →
    exec .build s = .next { s with seq := .build 0, done := false, overread := false, underread := false,
                                   dropped := false, err := .none, raced := [] }

/-- 40_build.md R110, R118, 10_state.md R27: after its acceptance BUILD goes through BUILD(0) to BUILD(255), one block
step each (the model's choice, log 9), and completes: every context's pairs and root are those of its row of the
frequency image, TABLE_VALID = 1, BUSY = 0, DONE = 1, ERR = NONE; every byte of IN and OUT and the other registers are unchanged. -/
def Obligations.BuildRunsToAValidTable : Prop :=
  ∀ s : State, s.busy = false → s.tableValid = false → ∃ t, exec .build s = .next t ∧
    (∀ n, n < 256 → (runBlock n t).seq = .build (BitVec.ofNat 8 n) ∧ (runBlock n t).tableValid = false) ∧
    (runBlock 256 t).seq = .idle ∧ (runBlock 256 t).tableValid = true ∧ (runBlock 256 t).done = true ∧
    (runBlock 256 t).err = .none ∧ (runBlock 256 t).overread = false ∧ (runBlock 256 t).underread = false ∧
    (runBlock 256 t).dropped = false ∧
    (∀ c : Byte,
      (runBlock 256 t).child[c.toNat] =
          (buildContext ((List.range 256).map fun j => s.readByte (inAddr (256 * c.toNat + j)))).pairs ∧
        (runBlock 256 t).rootOf c = BitVec.ofNat 9
          ((buildContext ((List.range 256).map fun j => s.readByte (inAddr (256 * c.toNat + j)))).numNodes - 1)) ∧
    (runBlock 256 t).mem = s.mem ∧ (∀ a, (runBlock 256 t).readByte a = s.readByte a) ∧
    (runBlock 256 t).gen = s.gen ∧ (runBlock 256 t).reads = s.reads ∧ (runBlock 256 t).inLen = s.inLen ∧ (runBlock 256 t).outCount = s.outCount ∧
    (runBlock 256 t).outLen = s.outLen ∧ (runBlock 256 t).consumed = s.consumed ∧
    (runBlock 256 t).taddrCtx = s.taddrCtx ∧ (runBlock 256 t).taddrNode = s.taddrNode ∧
    (runBlock 256 t).inLenL = s.inLenL

/-- 40_build.md R110, R113, R116, R118, 70_reset_and_hazards.md R236: the block step of BUILD(c), one whole context (the
model's choice, log 9), with host events before and after it or not: context c gets the pairs and the root of a row whose
counts are IN's bytes, but a draw for each byte the host raced; no other context changes; then comes BUILD(c+1), or after
context 255 the completion. -/
def Obligations.BuildStepBuildsItsContext : Prop :=
  ∀ (s : State) (c : Byte), s.seq = .build c →
    (∃ row : List Byte, row.length = 256 ∧ s.blockStep.child[c.toNat] = (buildContext row).pairs ∧
      s.blockStep.rootOf c = BitVec.ofNat 9 ((buildContext row).numNodes - 1) ∧
      ∀ j, j < 256 →
        (inAddr (256 * c.toNat + j) ∉ s.raced → row[j]? = some (s.readByte (inAddr (256 * c.toNat + j)))) ∧
          (inAddr (256 * c.toNat + j) ∈ s.raced → ∃ k, row[j]? = some (drawEntry 8 k j))) ∧
      (∀ d : Byte, d ≠ c → s.blockStep.child[d.toNat] = s.child[d.toNat] ∧ s.blockStep.rootOf d = s.rootOf d) ∧
      (c ≠ 255 → s.blockStep.seq = .build (c + 1) ∧ s.blockStep.tableValid = s.tableValid ∧
        s.blockStep.done = s.done ∧ s.blockStep.err = s.err ∧ s.blockStep.raced = s.raced ∧ s.blockStep.dp = s.dp) ∧
      (c = 255 → s.blockStep.seq = .idle ∧ s.blockStep.tableValid = true ∧ s.blockStep.done = true ∧
        s.blockStep.err = .none)

/-- The frame of BUILD's block step (40_build.md R110, 20_memory.md R62): it writes the table, the scratch and, at its
completion, TABLE_VALID, DONE, ERR and the unspecified datapath: no byte of IN or OUT, no other register or flag, and
nothing of the host's own. -/
def Obligations.BuildStepFrame : Prop :=
  ∀ (s : State) (c : Byte), s.seq = .build c →
    (∀ a, s.blockStep.readByte a = s.readByte a) ∧ s.blockStep.mem = s.mem ∧ s.blockStep.gen = s.gen ∧
      s.blockStep.overread = s.overread ∧ s.blockStep.underread = s.underread ∧ s.blockStep.dropped = s.dropped ∧
      s.blockStep.inLen = s.inLen ∧ s.blockStep.inLenL = s.inLenL ∧ s.blockStep.outCount = s.outCount ∧
      s.blockStep.outLen = s.outLen ∧ s.blockStep.consumed = s.consumed ∧ s.blockStep.taddrCtx = s.taddrCtx ∧
      s.blockStep.taddrNode = s.taddrNode ∧ s.blockStep.params = s.params ∧ s.blockStep.faults = s.faults ∧
      s.blockStep.agenda = s.agenda ∧ s.blockStep.reads = s.reads

/-- 40_build.md R111: InitContext sets CNT[j] to the row's count of symbol j, zero-extended, clears CNT above 255, and
clears every USED mark. -/
def Obligations.InitContextCopiesTheRow : Prop :=
  ∀ row : List Byte, row.length = 256 →
    (∀ j (h : j < row.length), ((initContext row).count j).toNat = (row[j]'h).toNat) ∧
      (∀ i, 256 ≤ i → i < 511 → (initContext row).count i = 0) ∧
      ∀ i, i < 511 → (initContext row).isUsed i = false

/-- 40_build.md R112: Pick(n) finds the unused node below n with the lowest nonzero count, the lowest number among equal
counts, and finds nothing exactly when there is no unused node below n with a nonzero count. -/
def Obligations.PickFindsLowestCountThenLowestNumber : Prop :=
  ∀ (sc : Scratch) (n : Nat), n ≤ 511 →
    (pickNode sc n = none ↔ ∀ i, i < n → sc.isUsed i = true ∨ sc.count i = 0) ∧
      ∀ b, pickNode sc n = some b ↔
        (b < n ∧ sc.isUsed b = false ∧ sc.count b ≠ 0 ∧
          (∀ i, i < n → sc.isUsed i = false → sc.count i ≠ 0 → (sc.count b).toNat ≤ (sc.count i).toNat) ∧
          ∀ i, i < b → sc.isUsed i = false → sc.count i ≠ 0 → (sc.count b).toNat < (sc.count i).toNat)

/-- 40_build.md R113: when both picks of a turn succeed, the first becomes child 0 and the second child 1 of the new node
numNodes, whose count is the sum, both are marked used, and the loop goes on; when the first pick fails, or the second,
the loop stops with no new node, and so it does at node 511. -/
def Obligations.MergeTurnLinksTheTwoPicks : Prop :=
  ∀ (fuel : Nat) (g : Growth), (g.numNodes = 511 → mergeLoop (fuel + 1) g = g) ∧ (g.numNodes < 511 →
    (∀ a b, pickNode g.scratch g.numNodes = some a → pickNode (g.scratch.mark a) g.numNodes = some b →
      ∃ g', mergeLoop (fuel + 1) g = mergeLoop fuel g' ∧
        g'.pairs = g.pairs ++ [(BitVec.ofNat 9 a, BitVec.ofNat 9 b)] ∧ g'.numNodes = g.numNodes + 1 ∧
        g'.scratch.count g.numNodes = g.scratch.count a + g.scratch.count b ∧
        (∀ i, i ≠ g.numNodes → g'.scratch.count i = g.scratch.count i) ∧
        ∀ i, i < 511 → g'.scratch.isUsed i = (g.scratch.isUsed i || i == a || i == b)) ∧
      (pickNode g.scratch g.numNodes = none → mergeLoop (fuel + 1) g = g) ∧
      ∀ a, pickNode g.scratch g.numNodes = some a → pickNode (g.scratch.mark a) g.numNodes = none →
        (mergeLoop (fuel + 1) g).pairs = g.pairs)

/-- 40_build.md R114, R116: a row with k nonzero counts gives exactly max(k - 1, 0) merges, so its root is node 254 + k,
or 255 when k <= 1. -/
def Obligations.RootNumberIsGivenByNonzeroCounts : Prop :=
  ∀ row : List Byte, row.length = 256 →
    (buildContext row).pairs.length = nonzeroSymbols row - 1 ∧ (buildContext row).pairs.length ≤ 255 ∧
      (buildContext row).numNodes - 1 = (if 2 ≤ nonzeroSymbols row then 254 + nonzeroSymbols row else 255)

/-- 40_build.md R115: no sum of a merge wraps and none is zero: every internal node's count is the sum of its
children's, nonzero and at most 65280. -/
def Obligations.InternalCountsNeverWrap : Prop :=
  ∀ row : List Byte, row.length = 256 →
    ∀ k (h : k < (buildContext row).pairs.length),
      ((buildContext row).scratch.count (256 + k)).toNat =
          ((buildContext row).scratch.count ((buildContext row).pairs[k]'h).1.toNat).toNat +
            ((buildContext row).scratch.count ((buildContext row).pairs[k]'h).2.toNat).toNat ∧
        (buildContext row).scratch.count (256 + k) ≠ 0 ∧ ((buildContext row).scratch.count (256 + k)).toNat ≤ 65280

/-- 40_build.md R119, item 4, for k >= 2 (item 4 names no k; with k = 1 the root is leaf 255, whose own count it is):
the root's count is the sum of the row. -/
def Obligations.RootCountIsTheRowSum : Prop :=
  ∀ row : List Byte, row.length = 256 → 2 ≤ nonzeroSymbols row →
    ((buildContext row).scratch.count ((buildContext row).numNodes - 1)).toNat = rowSum row

/-- 40_build.md R119, items 1 to 3: children are numbered below their parent; with k >= 2 the children of all internal
nodes are pairwise different, and they are exactly the leaves with a nonzero count and the internal nodes below the
root. -/
def Obligations.EveryNonzeroSymbolIsOneChild : Prop :=
  ∀ row : List Byte, row.length = 256 →
    ChildrenBelow (buildContext row).pairs ∧
      (2 ≤ nonzeroSymbols row →
        ((buildContext row).pairs.flatMap fun p => [p.1.toNat, p.2.toNat]).Nodup ∧
          ∀ n, n ∈ ((buildContext row).pairs.flatMap fun p => [p.1.toNat, p.2.toNat]) ↔
            (∃ h : n < row.length, row[n]'h ≠ 0) ∨ (256 ≤ n ∧ n < (buildContext row).numNodes - 1))

/-- 40_build.md R120: in a context with k >= 2 each symbol with a nonzero count has exactly one code from the root, of
length 1 to 255, and a symbol with count 0 has none; and no code is the beginning of another symbol's code. -/
def Obligations.CodesAreUniqueAndPrefixFree : Prop :=
  ∀ row : List Byte, row.length = 256 → 2 ≤ nonzeroSymbols row →
    (∀ b : Byte, row[b.toNat]? ≠ some 0 →
      ∃ code, CodePath (buildContext row).pairs (BitVec.ofNat 9 ((buildContext row).numNodes - 1)) code b ∧
        1 ≤ code.length ∧ code.length ≤ 255 ∧
        ∀ code', CodePath (buildContext row).pairs (BitVec.ofNat 9 ((buildContext row).numNodes - 1)) code' b →
          code' = code) ∧
      (∀ b : Byte, row[b.toNat]? = some 0 →
        ∀ code, ¬ CodePath (buildContext row).pairs (BitVec.ofNat 9 ((buildContext row).numNodes - 1)) code b) ∧
      ∀ (b b' : Byte) (code tail : List Bool),
        CodePath (buildContext row).pairs (BitVec.ofNat 9 ((buildContext row).numNodes - 1)) code b →
        CodePath (buildContext row).pairs (BitVec.ofNat 9 ((buildContext row).numNodes - 1)) (code ++ tail) b' →
        tail = [] ∧ b' = b

/-! ## DECODE: acceptance -/

/-- 60_exceptions.md R203, R210: DECODE without a table is refused with NO_TABLE before any other check; the three
result registers are 0. -/
def Obligations.DecodeWithoutTableIsRefused : Prop :=
  ∀ s : State, s.busy = false → s.tableValid = false →
    ∃ (d : Datapath) (k : Nat), exec .decode s = .next
      { s with done := true, err := .noTable, overread := false, underread := false, dropped := false, raced := [],
               inLenL := s.inLen, outCount := 0, outLen := 0, consumed := 0, dp := d, draws := k }

/-- 60_exceptions.md R205: with a table, IN_LEN beyond IN_SIZE is refused with IN_LEN_RANGE; the three result registers
are 0. -/
def Obligations.DecodeLengthBeyondBufferIsRefused : Prop :=
  ∀ s : State, s.busy = false → s.tableValid = true → s.params.inSize < s.inLen.toNat →
    ∃ (d : Datapath) (k : Nat), exec .decode s = .next
      { s with done := true, err := .inLenRange, overread := false, underread := false, dropped := false, raced := [],
               inLenL := s.inLen, outCount := 0, outLen := 0, consumed := 0, dp := d, draws := k }

/-- 60_exceptions.md R206: with a table and IN_LEN in range, a block shorter than its header is refused with SHORT_BLOCK;
the three result registers are 0. -/
def Obligations.DecodeShortBlockIsRefused : Prop :=
  ∀ s : State, s.busy = false → s.tableValid = true → s.inLen.toNat ≤ s.params.inSize → s.inLen.toNat < 4 →
    ∃ (d : Datapath) (k : Nat), exec .decode s = .next
      { s with done := true, err := .shortBlock, overread := false, underread := false, dropped := false, raced := [],
               inLenL := s.inLen, outCount := 0, outLen := 0, consumed := 0, dp := d, draws := k }

/-- 60_exceptions.md R207, 41_decode.md R143: a header count above OUT_SIZE is refused with OUT_RANGE; OUT_COUNT is the
count, OUT_LEN 0, CONSUMED 4, and no OUT byte is written. -/
def Obligations.DecodeCountBeyondOutputIsRefused : Prop :=
  ∀ s : State, s.busy = false → s.tableValid = true → s.inLen.toNat ≤ s.params.inSize → 4 ≤ s.inLen.toNat →
    s.params.outSize < s.headerCount.toNat →
    ∃ (d : Datapath) (k : Nat), exec .decode s = .next
      { s with done := true, err := .outRange, overread := false, underread := false, dropped := false, raced := [],
               inLenL := s.inLen, outCount := s.headerCount, outLen := 0, consumed := 4, dp := d, draws := k }

/-- 30_encoding.md R94, 41_decode.md R142: the header's count is IN[0..3], little-endian and unsigned. -/
def Obligations.HeaderCountIsLittleEndianUnsigned : Prop :=
  ∀ s : State, s.headerCount.toNat = (s.readByte 0x100000).toNat + 256 * (s.readByte 0x100001).toNat +
    65536 * (s.readByte 0x100002).toNat + 16777216 * (s.readByte 0x100003).toNat

/-- 41_decode.md R141 to R144: DECODE accepted with a table, a block of 4 to IN_SIZE bytes and a count of at most
OUT_SIZE latches IN_LEN, sets OUT_COUNT and BUSY and starts the walk at offset 4 in context 0 at ROOT[0]. -/
def Obligations.DecodeAcceptedStartsTheWalk : Prop :=
  ∀ s : State, s.busy = false → s.tableValid = true → s.inLen.toNat ≤ s.params.inSize → 4 ≤ s.inLen.toNat →
    s.headerCount.toNat ≤ s.params.outSize →
    exec .decode s = .next { s with seq := .decode, done := false, err := .none, overread := false,
                                    underread := false, dropped := false, raced := [], inLenL := s.inLen,
                                    outCount := s.headerCount, outLen := 0, consumed := 0,
                                    dp := { s.dp with off := 4, rem := s.headerCount, e := 0, ctx := 0,
                                                      node := s.rootOf 0, slot := 0 } }

/-! ## DECODE: the walk -/

/-- That one block step of DECODE is one bit slot, with the fetch inside the step of slot 0, is the model's choice (log 9).
41_decode.md R140, R145, 20_memory.md R71: at slot 0 with bytes owed the block fetches BYTE and counts OFF up before the
slot, and at any other slot it does the slot alone; the byte fetched is IN[OFF] below IN_LEN_L unless the
host raced it, and otherwise a draw. -/
def Obligations.PassBeginsWithAFetch : Prop :=
  ∀ s : State, s.seq = .decode →
    (s.dp.slot ≠ 0 → s.blockStep = s.slotStep) ∧
      (s.dp.slot = 0 → s.dp.rem ≠ 0 → s.dp.off.toNat < s.params.inSize →
        ∃ (d : Byte) (k : Nat), s.blockStep =
            State.slotStep { s with dp := { s.dp with byte := d, off := s.dp.off + 1 }, draws := k } ∧
          (s.dp.off.toNat < s.inLenL.toNat → inAddr s.dp.off.toNat ∉ s.raced →
            d = s.readByte (inAddr s.dp.off.toNat)) ∧
          ((s.inLenL.toNat ≤ s.dp.off.toNat ∨ inAddr s.dp.off.toNat ∈ s.raced) → ∃ j, d = drawBits 8 j))

/-- 41_decode.md R153, 60_exceptions.md R209: with bytes owed at slot 0 and OFF at IN_SIZE the block raises
INPUT_EXHAUSTED; OUT_LEN = E, CONSUMED = IN_SIZE, OUT_COUNT and every byte of OUT are unchanged. -/
def Obligations.FetchAtBufferEndIsExhausted : Prop :=
  ∀ s : State, s.seq = .decode → s.dp.slot = 0 → s.dp.rem ≠ 0 → s.params.inSize ≤ s.dp.off.toNat →
    ∃ (d : Datapath) (k : Nat), s.blockStep =
      { s with seq := .idle, done := true, err := .inputExhausted, overread := false, underread := false,
               outLen := s.dp.e, consumed := s.dp.off, raced := [], dp := d, draws := k }

/-- 41_decode.md R149, 30_encoding.md R95: at an internal node the slot's bit, least significant first, selects the
child, and the walk goes on to the next slot; nothing else changes. -/
def Obligations.BitSelectsTheChild : Prop :=
  ∀ s : State, 256 ≤ s.dp.node.toNat →
    s.slotStep =
        { s with dp := { s.dp with node := s.childOf s.dp.ctx s.dp.node (s.dp.byte.getLsbD s.dp.slot.toNat),
                                   slot := s.dp.slot + 1 } } ∧
    ∀ p, s.child[s.dp.ctx.toNat][s.dp.node.toNat - 256]? = some p →
      s.slotStep.dp.node = (if s.dp.byte.getLsbD s.dp.slot.toNat then p.2 else p.1)

/-- 41_decode.md R146, R147, R149: at a leaf with more than one byte owed and an internal root in the leaf's context, the
slot emits the leaf's byte at OUT[E], counts E up and REM down, switches to that context's root and uses the bit from
there; no other byte changes. -/
def Obligations.LeafIsEmittedAndSwitchesContext : Prop :=
  ∀ (s : State) (c : Byte), s.dp.node = c.setWidth 9 → s.dp.rem ≠ 1 → 256 ≤ (s.rootOf c).toNat →
    ∃ (v : Byte) (k : Nat), s.slotStep =
        { s with mem := s.mem.put (outAddr s.dp.e.toNat) v, draws := k,
                 dp := { s.dp with e := s.dp.e + 1, rem := s.dp.rem - 1, ctx := c, slot := s.dp.slot + 1,
                                   node := s.childOf c (s.rootOf c) (s.dp.byte.getLsbD s.dp.slot.toNat) } } ∧
      s.slotStep.readByte (outAddr s.dp.e.toNat) = v ∧
      (outAddr s.dp.e.toNat ∉ s.raced → v = c) ∧
      ∀ a, a ≠ outAddr s.dp.e.toNat → s.slotStep.readByte a = s.readByte a

/-- 41_decode.md R148, 60_exceptions.md R208: a switch to a context whose root is a leaf raises DEGENERATE_ROOT after the
leaf's byte is emitted and counted; OUT_LEN = E, CONSUMED = OFF, OUT_COUNT is unchanged. -/
def Obligations.SwitchToALeafRootIsDegenerate : Prop :=
  ∀ (s : State) (c : Byte), s.dp.node = c.setWidth 9 → s.dp.rem ≠ 1 → (s.rootOf c).toNat < 256 →
    ∃ (v : Byte) (d : Datapath) (k : Nat), s.slotStep =
        { s with mem := s.mem.put (outAddr s.dp.e.toNat) v, seq := .idle, done := true, err := .degenerateRoot,
                 overread := false, underread := false, outLen := s.dp.e + 1, consumed := s.dp.off, raced := [],
                 dp := d, draws := k } ∧
      s.slotStep.readByte (outAddr s.dp.e.toNat) = v ∧ (outAddr s.dp.e.toNat ∉ s.raced → v = c) ∧
      ∀ a, a ≠ outAddr s.dp.e.toNat → s.slotStep.readByte a = s.readByte a

/-- 41_decode.md R146, R151, R152: at a leaf with one byte owed the slot emits the last byte and the command completes
with ERR = NONE; OUT_LEN = E, CONSUMED = OFF, OVERREAD and UNDERREAD compare CONSUMED with IN_LEN_L. -/
def Obligations.LastLeafCompletesTheBlock : Prop :=
  ∀ (s : State) (c : Byte), s.dp.node = c.setWidth 9 → s.dp.rem = 1 →
    ∃ (v : Byte) (d : Datapath) (k : Nat), s.slotStep =
        { s with mem := s.mem.put (outAddr s.dp.e.toNat) v, seq := .idle, done := true, err := .none,
                 overread := decide (s.dp.off.toNat > s.inLenL.toNat + 1),
                 underread := decide (s.dp.off.toNat < s.inLenL.toNat), outLen := s.dp.e + 1, consumed := s.dp.off,
                 raced := [], dp := d, draws := k } ∧
      s.slotStep.readByte (outAddr s.dp.e.toNat) = v ∧ (outAddr s.dp.e.toNat ∉ s.raced → v = c) ∧
      ∀ a, a ≠ outAddr s.dp.e.toNat → s.slotStep.readByte a = s.readByte a

/-- That a count of 0 takes one block step, the next one, is the model's choice (log 9; 70_reset_and_hazards.md R240 says
at least one). 41_decode.md R140: an accepted block whose count is 0 fetches and emits nothing, and completes with OUT_LEN = 0 and CONSUMED = 4, and UNDERREAD exactly when IN_LEN > 4. -/
def Obligations.EmptyBlockCompletesWithoutAFetch : Prop :=
  ∀ s : State, s.busy = false → s.tableValid = true → s.inLen.toNat ≤ s.params.inSize → 4 ≤ s.inLen.toNat →
    s.headerCount = 0 → ∃ t, exec .decode s = .next t ∧
      t.blockStep.busy = false ∧ t.blockStep.done = true ∧ t.blockStep.err = .none ∧ t.blockStep.outLen = 0 ∧
      t.blockStep.outCount = 0 ∧ t.blockStep.consumed = 4 ∧ t.blockStep.overread = false ∧
      t.blockStep.underread = decide (4 < s.inLen.toNat) ∧ t.blockStep.mem = s.mem

/-- 41_decode.md R156: a block step of DECODE never writes CHILD (the slots never built included), ROOT, TABLE_VALID, the scratch or IN, nor OUT at any
byte but OUT[E]; nor the host's registers, the parameters or the fault set. -/
def Obligations.DecodeStepFrame : Prop :=
  ∀ s : State, s.seq = .decode →
    s.blockStep.child = s.child ∧ s.blockStep.unbuilt = s.unbuilt ∧ s.blockStep.root = s.root ∧
      s.blockStep.tableValid = s.tableValid ∧
      s.blockStep.scratch = s.scratch ∧ (∀ a, a ≠ outAddr s.dp.e.toNat → s.blockStep.readByte a = s.readByte a) ∧
      s.blockStep.inLen = s.inLen ∧ s.blockStep.inLenL = s.inLenL ∧ s.blockStep.outCount = s.outCount ∧
      s.blockStep.taddrCtx = s.taddrCtx ∧ s.blockStep.taddrNode = s.taddrNode ∧ s.blockStep.params = s.params ∧
      s.blockStep.dropped = s.dropped ∧ s.blockStep.faults = s.faults ∧ s.blockStep.reads = s.reads ∧
      s.blockStep.gen = s.gen

/-- 41_decode.md R150, R151, R154, 70_reset_and_hazards.md R240: from a legal state an accepted DECODE completes within
8 * IN_SIZE block steps, in one of the three ways of R150; it writes no byte but OUT[0..OUT_LEN-1]; and with ERR = NONE
OUT_LEN = OUT_COUNT. -/
def Obligations.DecodeCompletesWithinItsBound : Prop :=
  ∀ s : State, s.Legal → s.busy = false → s.tableValid = true → s.inLen.toNat ≤ s.params.inSize → 4 ≤ s.inLen.toNat →
    s.headerCount.toNat ≤ s.params.outSize → ∃ t n, exec .decode s = .next t ∧ n ≤ 8 * s.params.inSize ∧
      (runBlock n t).busy = false ∧ (runBlock n t).done = true ∧
      ((runBlock n t).err = .none ∨ (runBlock n t).err = .degenerateRoot ∨ (runBlock n t).err = .inputExhausted) ∧
      (runBlock n t).outCount = s.headerCount ∧ (runBlock n t).outLen.toNat ≤ s.headerCount.toNat ∧
      ((runBlock n t).err = .none → (runBlock n t).outLen.toNat = s.headerCount.toNat) ∧
      (∀ a, (a < outAddr 0 ∨ outAddr (runBlock n t).outLen.toNat ≤ a) → (runBlock n t).readByte a = s.readByte a)

/-- 41_decode.md R157: the round trip. In a legal state with a table, let the block in IN be a byte string's length and
its codes packed least significant bit first, with IN_LEN its exact length, below IN_SIZE (at IN_SIZE the slack fetch of
R145 would raise INPUT_EXHAUSTED). Then DECODE ends with ERR = NONE, OUT holds the byte string, neither diagnostic is set
and CONSUMED is IN_LEN, or one more when the codes fill their last byte. -/
def Obligations.RoundTripOfEncodedBlock : Prop :=
  ∀ (s : State) (x : List Byte) (bits : List Bool), s.Legal → s.busy = false → s.tableValid = true →
    s.Encodes 0 x bits → s.inLen.toNat = 4 + (bits.length + 7) / 8 → s.inLen.toNat < s.params.inSize →
    x.length ≤ s.params.outSize → s.headerCount.toNat = x.length →
    (∀ k (h : k < bits.length), (s.readByte (inAddr (4 + k / 8))).getLsbD (k % 8) = bits[k]'h) →
    ∃ t n, exec .decode s = .next t ∧ (runBlock n t).busy = false ∧ (runBlock n t).done = true ∧
      (runBlock n t).err = .none ∧ (runBlock n t).overread = false ∧ (runBlock n t).underread = false ∧
      (runBlock n t).outLen.toNat = x.length ∧
      (∀ k (h : k < x.length), (runBlock n t).readByte (outAddr k) = x[k]'h) ∧
      (runBlock n t).consumed.toNat =
        s.inLen.toNat + (if bits.length ≠ 0 ∧ bits.length % 8 = 0 then 1 else 0)

/-! ## RELEASE -/

/-- 42_control.md R170: RELEASE accepted clears TABLE_VALID and completes in its transaction with ERR = NONE, with or
without a table; CHILD, ROOT and every register but the flags and the datapath are unchanged. -/
def Obligations.ReleaseCompletesAtOnce : Prop :=
  ∀ s : State, s.busy = false →
    ∃ (d : Datapath) (k : Nat), exec .release s = .next
      { s with tableValid := false, done := true, err := .none, overread := false, underread := false,
               dropped := false, raced := [], dp := d, draws := k }

/-! ## The host's bus -/

/-- 20_memory.md R61, R66, R68: with legal parameters an access of 1, 2 or 4 bytes is admitted exactly when it is
naturally aligned and lies wholly inside the register region, with four bytes, or inside IN, or inside OUT. -/
def Obligations.AdmittedAccessesAreAlignedAndInside : Prop :=
  ∀ (p : Params) (a : Offset) (n : Nat), p.wellFormed = true → (n = 1 ∨ n = 2 ∨ n = 4) →
    (regionOf p a.toNat n = some .registers ↔ a.toNat % n = 0 ∧ a.toNat + n ≤ 0x100 ∧ n = 4) ∧
      (regionOf p a.toNat n = some .inBuf ↔
        a.toNat % n = 0 ∧ 0x100000 ≤ a.toNat ∧ a.toNat + n ≤ 0x100000 + p.inSize) ∧
      (regionOf p a.toNat n = some .outBuf ↔
        a.toNat % n = 0 ∧ 0x200000 ≤ a.toNat ∧ a.toNat + n ≤ 0x200000 + p.outSize)

/-- 20_memory.md R67, 60_exceptions.md R214: an access that is not admitted changes nothing of the block: the step goes
on with the fault BusError(a, n) in the fault set. -/
def Obligations.BusErrorHasNoEffect : Prop :=
  ∀ (s : State) (a : Offset) (rest : List Event),
    (∀ t n, ((t = .rd8 a ∧ n = 1) ∨ (t = .rd16 a ∧ n = 2) ∨ (t = .rd32 a ∧ n = 4) ∨ (∃ v, t = .wr8 a v ∧ n = 1) ∨
        (∃ v, t = .wr16 a v ∧ n = 2) ∨ ∃ v, t = .wr32 a v ∧ n = 4) →
      s.agenda = .host t :: rest → regionOf s.params a.toNat n = none →
      ∃ u, step s = .next u ∧ .busError a n ∈ u.faults ∧ (∀ f ∈ s.faults, f ∈ u.faults) ∧
        u = { s with agenda := rest, faults := u.faults })

/-- 20_memory.md R70: a read has no side effect: the step changes only what the host has received, the draw counter and,
on a bus error, the fault set. A legal read records no fault and gives the host one value. -/
def Obligations.ReadsHaveNoSideEffect : Prop :=
  ∀ (s : State) (a : Offset) (t : HostTxn) (n : Nat) (rest : List Event),
    ((t = .rd8 a ∧ n = 1) ∨ (t = .rd16 a ∧ n = 2) ∨ (t = .rd32 a ∧ n = 4)) → s.agenda = .host t :: rest →
    ∃ u, step s = .next u ∧ u = { s with agenda := rest, reads := u.reads, draws := u.draws, faults := u.faults } ∧
      (regionOf s.params a.toNat n ≠ none →
        u.faults = s.faults ∧ ∃ d, u.reads = { a := a, n := n, data := d } :: s.reads) ∧
      (regionOf s.params a.toNat n = none → u.reads = s.reads ∧ u.draws = s.draws)

/-- 42_control.md R175, 70_reset_and_hazards.md R237: reads of CMD, STATUS, IN_LEN, TADDR, CFG_IN_SIZE and CFG_OUT_SIZE
are exact at all times, and the reserved words read 0. -/
def Obligations.ExactRegisterReads : Prop :=
  ∀ (s : State) (a : Offset) (rest : List Event), s.agenda = .host (.rd32 a) :: rest →
    ∀ d : Word, ((a = 0x000 ∧ d = 0) ∨ (a = 0x004 ∧ d = s.statusWord) ∨ (a = 0x008 ∧ d = s.inLen) ∨
        (a = 0x018 ∧ d = s.taddrWord) ∨ (a = 0x024 ∧ d = BitVec.ofNat 32 s.params.inSize) ∨
        (a = 0x028 ∧ d = BitVec.ofNat 32 s.params.outSize) ∨
        (0x02C ≤ a.toNat ∧ a.toNat ≤ 0x0FC ∧ a.toNat % 4 = 0 ∧ d = 0)) →
      ∃ u, step s = .next u ∧ u.reads = { a := a, n := 4, data := d } :: s.reads

/-- 10_state.md R39 to R41: while BUSY = 0, OUT_COUNT, OUT_LEN and CONSUMED read their values, zero-extended. -/
def Obligations.ResultRegisterReadsWhileIdle : Prop :=
  ∀ (s : State) (a : Offset) (rest : List Event), s.agenda = .host (.rd32 a) :: rest → s.busy = false →
    ∀ d : Word, ((a = 0x00C ∧ d = s.outCount) ∨ (a = 0x010 ∧ d = s.outLen.setWidth 32) ∨
        (a = 0x014 ∧ d = s.consumed.setWidth 32)) →
      ∃ u, step s = .next u ∧ u.reads = { a := a, n := 4, data := d } :: s.reads

/-- 10_state.md R30 to R37: the fields of STATUS, bit by bit; all other bits are 0. Bits 11:8 are the number that
60_exceptions.md R201 gives the error. -/
def Obligations.StatusWordFields : Prop :=
  ∀ s : State, s.statusWord.getLsbD 0 = s.busy ∧ s.statusWord.getLsbD 1 = s.done ∧
    s.statusWord.getLsbD 2 = s.tableValid ∧ s.statusWord.getLsbD 3 = s.overread ∧
    s.statusWord.getLsbD 4 = s.underread ∧ s.statusWord.getLsbD 5 = s.dropped ∧
    s.statusWord.extractLsb' 8 4 = s.err.code ∧ s.statusWord.extractLsb' 6 2 = 0 ∧
    s.statusWord.extractLsb' 12 20 = 0 ∧
    (s.err, s.statusWord.extractLsb' 8 4) ∈
      [(ErrCode.none, 0#4), (.badCmd, 1#4), (.noTable, 2#4), (.tablePresent, 3#4), (.inLenRange, 4#4),
        (.shortBlock, 5#4), (.outRange, 6#4), (.degenerateRoot, 7#4), (.inputExhausted, 8#4)]

/-- 10_state.md R43, R44: with a table and BUSY = 0, TDATA reads the two children of a built node, 0 for a leaf number
and for 511, and TROOT reads the root of the context TADDR selects. -/
def Obligations.TableReadback : Prop :=
  ∀ (s : State) (rest : List Event), s.busy = false → s.tableValid = true →
    (s.agenda = .host (.rd32 0x020) :: rest → ∃ u, step s = .next u ∧
      u.reads = { a := 0x020, n := 4, data := (s.root[s.taddrCtx.toNat]).setWidth 32 } :: s.reads) ∧
    (s.agenda = .host (.rd32 0x01C) :: rest → s.taddrNode.toNat < 256 ∨ s.taddrNode.toNat = 511 → ∃ u, step s = .next u ∧
      u.reads = { a := 0x01C, n := 4, data := 0 } :: s.reads) ∧
    ∀ p, s.agenda = .host (.rd32 0x01C) :: rest → 256 ≤ s.taddrNode.toNat → s.taddrNode.toNat ≠ 511 →
      s.taddrNode.toNat ≤ (s.root[s.taddrCtx.toNat]).toNat →
      s.child[s.taddrCtx.toNat][s.taddrNode.toNat - 256]? = some p → ∃ u, step s = .next u ∧
      u.reads = { a := 0x01C, n := 4, data := (p.2.setWidth 32 <<< 16) ||| p.1.setWidth 32 } :: s.reads

/-- 42_control.md R174, 10_state.md R38, R42, R47, 20_memory.md R70: a write to IN_LEN stores the word, a write to TADDR
stores bits 7:0 and 24:16 and reads back with the reserved bits 0, and a write to any other register but CMD is ignored;
BUSY does not matter. -/
def Obligations.RegisterWrites : Prop :=
  ∀ (s : State) (a : Offset) (v : Word) (rest : List Event), s.agenda = .host (.wr32 a v) :: rest →
    (a = 0x008 → step s = .next { s with agenda := rest, inLen := v }) ∧
      (a = 0x018 → ∃ u, step s = .next u ∧
        u = { s with agenda := rest, taddrCtx := v.setWidth 8, taddrNode := (v >>> 16).setWidth 9 } ∧
        u.taddrWord = v &&& 0x01FF00FF#32) ∧
      (a ≠ 0x000 → a ≠ 0x008 → a ≠ 0x018 → a.toNat < 0x100 → a.toNat % 4 = 0 → step s = .next { s with agenda := rest })

/-- 20_memory.md R62 to R64, R66: while BUSY = 0 a legal 8-bit, 16-bit or 32-bit write to IN or OUT stores its bytes
little-endian, changes no other byte and no register, and a later read of them, in that width or a smaller one, returns
them. -/
def Obligations.BufferWritesAreLittleEndian : Prop :=
  ∀ (s : State) (a : Offset) (t : HostTxn) (n : Nat) (v : Word) (rest : List Event), s.agenda = .host t :: rest →
    s.busy = false →
    ((∃ x : BitVec 8, t = .wr8 a x ∧ n = 1 ∧ v = x.setWidth 32) ∨
      (∃ x : BitVec 16, t = .wr16 a x ∧ n = 2 ∧ v = x.setWidth 32) ∨ (t = .wr32 a v ∧ n = 4)) →
    (regionOf s.params a.toNat n = some .inBuf ∨ regionOf s.params a.toNat n = some .outBuf) →
    ∃ u, step s = .next u ∧ u = { s with agenda := rest, mem := u.mem } ∧ u.readLE a.toNat n = v ∧
      (n = 4 → u.readLE a.toNat 2 = v &&& 0xFFFF#32 ∧ u.readLE (a.toNat + 2) 2 = v >>> 16) ∧
      (∀ k, k < n → u.readByte (a.toNat + k) = (v >>> (8 * k)).setWidth 8) ∧
      ∀ b, (b < a.toNat ∨ a.toNat + n ≤ b) → u.readByte b = s.readByte b

/-- 42_control.md R176: a legal read of IN or OUT while BUSY = 0 returns the bytes it names, little-endian. -/
def Obligations.BufferReadsWhileIdle : Prop :=
  ∀ (s : State) (a : Offset) (rest : List Event), s.busy = false →
    (s.agenda = .host (.rd8 a) :: rest → (regionOf s.params a.toNat 1).isSome → ∃ u, step s = .next u ∧
      u.reads = { a := a, n := 1, data := (s.readByte a.toNat).setWidth 32 } :: s.reads) ∧
    (s.agenda = .host (.rd16 a) :: rest → (regionOf s.params a.toNat 2).isSome → ∃ u, step s = .next u ∧
      u.reads = { a := a, n := 2,
                  data := (s.readByte a.toNat).setWidth 32 ||| ((s.readByte (a.toNat + 1)).setWidth 32 <<< 8) } ::
        s.reads) ∧
    (s.agenda = .host (.rd32 a) :: rest →
      (regionOf s.params a.toNat 4 = some .inBuf ∨ regionOf s.params a.toNat 4 = some .outBuf) → ∃ u, step s = .next u ∧
      u.reads = { a := a, n := 4,
                  data := (s.readByte a.toNat).setWidth 32 ||| ((s.readByte (a.toNat + 1)).setWidth 32 <<< 8) |||
                    ((s.readByte (a.toNat + 2)).setWidth 32 <<< 16) |||
                    ((s.readByte (a.toNat + 3)).setWidth 32 <<< 24) } :: s.reads)

/-- 42_control.md R176, 70_reset_and_hazards.md R236, 60_exceptions.md R214: a host write to IN or OUT while BUSY = 1
stores its bytes and no other, records HostRace at its offset, leaves the command running, and makes the command's later
reads of those bytes draws and its later writes of them unspecified. -/
def Obligations.RacingWriteIsRecorded : Prop :=
  ∀ (s : State) (a : Offset) (t : HostTxn) (bs : List Byte) (rest : List Event), s.agenda = .host t :: rest →
    s.busy = true →
    ((∃ v, t = .wr8 a v ∧ bs = [v]) ∨ (∃ v : BitVec 16, t = .wr16 a v ∧ bs = leBytes 2 (v.setWidth 32)) ∨
      ∃ v, t = .wr32 a v ∧ bs = leBytes 4 v) →
    (regionOf s.params a.toNat bs.length = some .inBuf ∨ regionOf s.params a.toNat bs.length = some .outBuf) →
    ∃ u, step s = .next u ∧ (∀ k (h : k < bs.length), u.readByte (a.toNat + k) = bs[k]'h) ∧
      (∀ b, b < a.toNat ∨ a.toNat + bs.length ≤ b → u.readByte b = s.readByte b) ∧ .hostRace a ∈ u.faults ∧
      u.seq = s.seq ∧ u.dp = s.dp ∧
      (∀ k o, k < bs.length → inAddr o = a.toNat + k → ∀ d : Byte, u.readIn o d = d) ∧
      ∀ k e, k < bs.length → outAddr e = a.toNat + k → ∀ v d : Byte, (u.emit e v d).readByte (outAddr e) = d

/-- 30_encoding.md R99, 20_memory.md R74: WAIT reads STATUS, and is over when that read shows BUSY = 0; while it shows
BUSY = 1 the host polls again, after a block step (the model's schedule, log 10). -/
def Obligations.WaitPollsStatus : Prop :=
  ∀ (s : State) (rest : List Event), s.agenda = .wait :: rest →
    ∃ u, step s = .next u ∧ u.reads = { a := 0x004, n := 4, data := s.statusWord } :: s.reads ∧
      (s.busy = false → u.agenda = rest) ∧ (s.busy = true → u.agenda = .block :: .wait :: rest) ∧ u.seq = s.seq

/-! ## Reset -/

/-- 70_reset_and_hazards.md R230: what reset leaves, at the first reset and at a platform reset from any state. -/
def Obligations.ResetValues : Prop :=
  ∀ s t : State, (s = State.reset ∨ s = t.platformReset) →
    s.statusWord = 0 ∧ s.seq = .idle ∧ s.inLen = 0 ∧ s.outCount = 0 ∧ s.outLen = 0 ∧ s.consumed = 0 ∧
      s.taddrWord = 0 ∧ s.tableValid = false ∧ s.readRegister 0x024 = BitVec.ofNat 32 s.params.inSize ∧
      s.readRegister 0x028 = BitVec.ofNat 32 s.params.outSize ∧ (s = t.platformReset → s.params = t.params)

/-- 70_reset_and_hazards.md R230 to R232, 60_exceptions.md R214: the event reset takes the block to its reset state
(`ResetValues`) from any state, a running command abandoned, every byte of IN and OUT a free value of the new reset
(log 6), the recorded faults kept. -/
def Obligations.ResetAbandonsTheCommand : Prop :=
  ∀ (s : State) (rest : List Event), s.agenda = .reset :: rest →
    ∃ u, step s = .next u ∧ u = State.platformReset { s with agenda := rest } ∧ u.seq = .idle ∧ u.busy = false ∧
      u.statusWord = 0 ∧ u.inLen = 0 ∧ u.outCount = 0 ∧ u.outLen = 0 ∧ u.consumed = 0 ∧ u.taddrWord = 0 ∧
      u.tableValid = false ∧ (∀ a, u.readByte a = Config.unwrittenByte (s.gen + 1) a) ∧ u.agenda = rest ∧ u.faults = s.faults ∧ u.reads = s.reads ∧ u.params = s.params

/-! ## The whole machine -/

/-- 10_state.md R23, 40_build.md R118, 42_control.md R170: the only step that sets TABLE_VALID is the completion of a
BUILD, and the only steps that clear it are an accepted RELEASE and a reset. -/
def Obligations.TableValidWriters : Prop :=
  ∀ s t : State, step s = .next t →
    (s.tableValid = false → t.tableValid = true →
      s.seq = .build 255 ∧ t.seq = .idle ∧ (s.agenda = [] ∨ s.agenda.head? = some .block)) ∧
      (s.tableValid = true → t.tableValid = false →
        s.agenda.head? = some .reset ∨ (s.busy = false ∧ s.agenda.head? = some (submitEvent (encode .release))))

/-- 10_state.md R23, 20_memory.md R75: while TABLE_VALID = 1 in a legal state no step but a reset changes CHILD, in any
slot, or ROOT. -/
def Obligations.ValidTableIsImmutable : Prop :=
  ∀ s t : State, s.Legal → s.tableValid = true → s.agenda.head? ≠ some .reset → step s = .next t →
    t.child = s.child ∧ t.unbuilt = s.unbuilt ∧ t.root = s.root ∧ ∀ c n b, t.childOf c n b = s.childOf c n b

/-- 60_exceptions.md R214: no step clears a recorded model-level fault. -/
def Obligations.FaultsAreNeverCleared : Prop :=
  ∀ s t : State, step s = .next t → ∀ f ∈ s.faults, f ∈ t.faults

/-- 10_state.md R49: a host transaction other than a CMD write changes no flag of STATUS. -/
def Obligations.OnlyCommandWritesChangeFlags : Prop :=
  ∀ (s t : State) (txn : HostTxn) (rest : List Event), s.agenda = .host txn :: rest → (∀ w, txn ≠ .wr32 0x000 w) →
    step s = .next t → t.statusWord = s.statusWord ∧ t.seq = s.seq ∧ t.tableValid = s.tableValid

/-- 10_state.md R45, R46: no step changes the parameters, so CFG_IN_SIZE and CFG_OUT_SIZE are constant. -/
def Obligations.ParametersAreConstant : Prop :=
  ∀ s t : State, step s = .next t → t.params = s.params

/-- 60_exceptions.md R200, R214: no step of the machine ends in a fault or a refusal: every error is reported in STATUS
or recorded in the fault set, and the run goes on. -/
def Obligations.EveryStepGoesOn : Prop := ∀ s : State, ∃ t, step s = .next t

/-- 70_reset_and_hazards.md R230: the state after reset is legal. -/
def Obligations.LegalAtReset : Prop := State.reset.Legal

/-- The invariant of the machine (10_state.md R23, R27, R32 to R41; 40_build.md R116, R119; 41_decode.md R150, R152,
R155): every step from a legal state, reached by a run or not, gives a legal state. -/
def Obligations.StepKeepsLegal : Prop :=
  ∀ s t : State, s.Legal → step s = .next t → t.Legal

/-- 70_reset_and_hazards.md R240: from a legal state with a command in progress and no host event left, the machine
completes the command within 8 * IN_SIZE steps. -/
def Obligations.CommandInProgressCompletes : Prop :=
  ∀ s : State, s.Legal → s.busy = true → s.agenda = [] →
    ∃ n t, n ≤ 8 * s.params.inSize ∧ Host.Core.run core n s = .next t ∧ t.busy = false ∧ t.done = true ∧ t.agenda = []
end

