-- ==== Sys2Proof/Laws/Memory.lean ====
section
/-! SUPPORT. The laws of byte cells: a read after a write, and that every memory operation keeps the canonical form. -/

namespace Sys2Proof.Machine

@[simp] theorem Memory.find_nil (a : Nat) : Memory.find [] a = none := rfl

@[simp] theorem Memory.find_cons (k : Nat) (v : Byte) (m : Memory) (a : Nat) :
    Memory.find ((k, v) :: m) a = if k = a then some v else Memory.find m a := rfl

/-- A read after a write to the same offset gives the byte written. -/
@[simp] theorem Memory.find_put_self (m : Memory) (a : Nat) (v : Byte) : (m.put a v).find a = some v := by
  induction m with
  | nil => simp [Memory.put]
  | cons c m ih =>
    obtain ⟨k, x⟩ := c
    simp only [Memory.put]
    split
    · simp
    · split
      · simp
      · rename_i _ hne; simp [Ne.symm hne, ih]

/-- A write leaves every other offset alone. -/
theorem Memory.find_put_ne (m : Memory) {a b : Nat} (v : Byte) (h : b ≠ a) : (m.put a v).find b = m.find b := by
  induction m with
  | nil => simp [Memory.put, h.symm]
  | cons c m ih =>
    obtain ⟨k, x⟩ := c
    simp only [Memory.put]
    split
    · simp [h.symm]
    · split
      · rename_i _ he; subst he; simp [h.symm]
      · simp [ih]

/-- A cell of a written memory is the cell written or an old one. -/
theorem Memory.mem_put {m : Memory} {a : Nat} {v : Byte} {c : Host.Cell} (h : c ∈ m.put a v) : c = (a, v) ∨ c ∈ m := by
  induction m with
  | nil => simp_all [Memory.put]
  | cons d m ih =>
    obtain ⟨k, x⟩ := d
    simp only [Memory.put] at h
    split at h
    · simp_all
    · split at h
      · simp only [List.mem_cons] at h ⊢; tauto
      · simp only [List.mem_cons] at h ⊢; tauto

/-- Reset's memory is in canonical form. -/
theorem Memory.wf_nil : Memory.wf [] := List.Pairwise.nil

/-- A write keeps the canonical form. -/
theorem Memory.wf_put {m : Memory} (a : Nat) (v : Byte) (h : m.wf) : Memory.wf (m.put a v) := by
  induction m with
  | nil => simp [Memory.put, Memory.wf]
  | cons c m ih =>
    obtain ⟨k, x⟩ := c
    rw [Memory.wf, List.pairwise_cons] at h
    obtain ⟨hk, hm⟩ := h
    simp only [Memory.put]
    split
    · rename_i hlt
      refine List.pairwise_cons.mpr ⟨fun c hc => ?_, List.pairwise_cons.mpr ⟨hk, hm⟩⟩
      rcases List.mem_cons.mp hc with rfl | hc
      · exact hlt
      · exact lt_trans hlt (hk c hc)
    · split
      · rename_i _ he
        subst he
        exact List.pairwise_cons.mpr ⟨hk, hm⟩
      · rename_i hge hne
        refine List.pairwise_cons.mpr ⟨fun c hc => ?_, ih hm⟩
        rcases Memory.mem_put hc with rfl | hc
        · show k < a; omega
        · exact hk c hc

/-- Cutting a memory to a window keeps the canonical form. -/
theorem Memory.wf_window {m : Memory} (lo hi : Nat) (h : m.wf) : Memory.wf (m.window lo hi) :=
  List.Pairwise.filter _ h

/-- Cutting a memory to a window changes no byte of the window. -/
theorem Memory.find_window (m : Memory) {lo hi a : Nat} (h1 : lo ≤ a) (h2 : a < hi) :
    (m.window lo hi).find a = m.find a := by
  induction m with
  | nil => rfl
  | cons c m ih =>
    obtain ⟨k, x⟩ := c
    simp only [Memory.window, List.filter_cons] at ih ⊢
    by_cases hk : k = a
    · subst hk; simp [h1, h2]
    · split <;> simp [hk, ih]

/-- A canonical memory lists a cell exactly when reading its offset finds its byte. -/
theorem Memory.find_eq_some_of_mem {m : Memory} (h : m.wf) {a : Nat} {v : Byte} (hm : (a, v) ∈ m) :
    m.find a = some v := by
  induction m with
  | nil => simp at hm
  | cons c m ih =>
    obtain ⟨k, x⟩ := c
    rw [Memory.wf, List.pairwise_cons] at h
    rcases List.mem_cons.mp hm with heq | hm
    · cases heq; simp
    · have := h.1 _ hm
      have hne : k ≠ a := Nat.ne_of_lt this
      simp [hne, ih h.2 hm]

end Sys2Proof.Machine
end

