-- ==== Sys2Proof/Laws/State.lean ====
section
/-! SUPPORT. What each shared update does to each field of State: one lemma per field per update, true by rfl. -/

namespace Sys2Proof.Machine

/-! `State.writeByte` -/

@[simp] theorem State.writeByte_params (s : State) (a : Nat) (v : Byte) : (s.writeByte a v).params = s.params := rfl
@[simp] theorem State.writeByte_seq (s : State) (a : Nat) (v : Byte) : (s.writeByte a v).seq = s.seq := rfl
@[simp] theorem State.writeByte_done (s : State) (a : Nat) (v : Byte) : (s.writeByte a v).done = s.done := rfl
@[simp] theorem State.writeByte_tableValid (s : State) (a : Nat) (v : Byte) : (s.writeByte a v).tableValid = s.tableValid := rfl
@[simp] theorem State.writeByte_overread (s : State) (a : Nat) (v : Byte) : (s.writeByte a v).overread = s.overread := rfl
@[simp] theorem State.writeByte_underread (s : State) (a : Nat) (v : Byte) : (s.writeByte a v).underread = s.underread := rfl
@[simp] theorem State.writeByte_dropped (s : State) (a : Nat) (v : Byte) : (s.writeByte a v).dropped = s.dropped := rfl
@[simp] theorem State.writeByte_err (s : State) (a : Nat) (v : Byte) : (s.writeByte a v).err = s.err := rfl
@[simp] theorem State.writeByte_inLen (s : State) (a : Nat) (v : Byte) : (s.writeByte a v).inLen = s.inLen := rfl
@[simp] theorem State.writeByte_outCount (s : State) (a : Nat) (v : Byte) : (s.writeByte a v).outCount = s.outCount := rfl
@[simp] theorem State.writeByte_outLen (s : State) (a : Nat) (v : Byte) : (s.writeByte a v).outLen = s.outLen := rfl
@[simp] theorem State.writeByte_consumed (s : State) (a : Nat) (v : Byte) : (s.writeByte a v).consumed = s.consumed := rfl
@[simp] theorem State.writeByte_taddrCtx (s : State) (a : Nat) (v : Byte) : (s.writeByte a v).taddrCtx = s.taddrCtx := rfl
@[simp] theorem State.writeByte_taddrNode (s : State) (a : Nat) (v : Byte) : (s.writeByte a v).taddrNode = s.taddrNode := rfl
@[simp] theorem State.writeByte_inLenL (s : State) (a : Nat) (v : Byte) : (s.writeByte a v).inLenL = s.inLenL := rfl
@[simp] theorem State.writeByte_dp (s : State) (a : Nat) (v : Byte) : (s.writeByte a v).dp = s.dp := rfl
@[simp] theorem State.writeByte_child (s : State) (a : Nat) (v : Byte) : (s.writeByte a v).child = s.child := rfl
@[simp] theorem State.writeByte_unbuilt (s : State) (a : Nat) (v : Byte) : (s.writeByte a v).unbuilt = s.unbuilt := rfl
@[simp] theorem State.writeByte_root (s : State) (a : Nat) (v : Byte) : (s.writeByte a v).root = s.root := rfl
@[simp] theorem State.writeByte_scratch (s : State) (a : Nat) (v : Byte) : (s.writeByte a v).scratch = s.scratch := rfl
@[simp] theorem State.writeByte_mem (s : State) (a : Nat) (v : Byte) : (s.writeByte a v).mem = s.mem.put a v := rfl
@[simp] theorem State.writeByte_raced (s : State) (a : Nat) (v : Byte) : (s.writeByte a v).raced = s.raced := rfl
@[simp] theorem State.writeByte_faults (s : State) (a : Nat) (v : Byte) : (s.writeByte a v).faults = s.faults := rfl
@[simp] theorem State.writeByte_agenda (s : State) (a : Nat) (v : Byte) : (s.writeByte a v).agenda = s.agenda := rfl
@[simp] theorem State.writeByte_reads (s : State) (a : Nat) (v : Byte) : (s.writeByte a v).reads = s.reads := rfl
@[simp] theorem State.writeByte_draws (s : State) (a : Nat) (v : Byte) : (s.writeByte a v).draws = s.draws := rfl
@[simp] theorem State.writeByte_gen (s : State) (a : Nat) (v : Byte) : (s.writeByte a v).gen = s.gen := rfl

/-! `State.freeDatapath` -/

@[simp] theorem State.freeDatapath_params (s : State) : s.freeDatapath.params = s.params := rfl
@[simp] theorem State.freeDatapath_seq (s : State) : s.freeDatapath.seq = s.seq := rfl
@[simp] theorem State.freeDatapath_done (s : State) : s.freeDatapath.done = s.done := rfl
@[simp] theorem State.freeDatapath_tableValid (s : State) : s.freeDatapath.tableValid = s.tableValid := rfl
@[simp] theorem State.freeDatapath_overread (s : State) : s.freeDatapath.overread = s.overread := rfl
@[simp] theorem State.freeDatapath_underread (s : State) : s.freeDatapath.underread = s.underread := rfl
@[simp] theorem State.freeDatapath_dropped (s : State) : s.freeDatapath.dropped = s.dropped := rfl
@[simp] theorem State.freeDatapath_err (s : State) : s.freeDatapath.err = s.err := rfl
@[simp] theorem State.freeDatapath_inLen (s : State) : s.freeDatapath.inLen = s.inLen := rfl
@[simp] theorem State.freeDatapath_outCount (s : State) : s.freeDatapath.outCount = s.outCount := rfl
@[simp] theorem State.freeDatapath_outLen (s : State) : s.freeDatapath.outLen = s.outLen := rfl
@[simp] theorem State.freeDatapath_consumed (s : State) : s.freeDatapath.consumed = s.consumed := rfl
@[simp] theorem State.freeDatapath_taddrCtx (s : State) : s.freeDatapath.taddrCtx = s.taddrCtx := rfl
@[simp] theorem State.freeDatapath_taddrNode (s : State) : s.freeDatapath.taddrNode = s.taddrNode := rfl
@[simp] theorem State.freeDatapath_inLenL (s : State) : s.freeDatapath.inLenL = s.inLenL := rfl
@[simp] theorem State.freeDatapath_dp (s : State) : s.freeDatapath.dp = Datapath.free s.draws := rfl
@[simp] theorem State.freeDatapath_child (s : State) : s.freeDatapath.child = s.child := rfl
@[simp] theorem State.freeDatapath_unbuilt (s : State) : s.freeDatapath.unbuilt = s.unbuilt := rfl
@[simp] theorem State.freeDatapath_root (s : State) : s.freeDatapath.root = s.root := rfl
@[simp] theorem State.freeDatapath_scratch (s : State) : s.freeDatapath.scratch = s.scratch := rfl
@[simp] theorem State.freeDatapath_mem (s : State) : s.freeDatapath.mem = s.mem := rfl
@[simp] theorem State.freeDatapath_raced (s : State) : s.freeDatapath.raced = s.raced := rfl
@[simp] theorem State.freeDatapath_faults (s : State) : s.freeDatapath.faults = s.faults := rfl
@[simp] theorem State.freeDatapath_agenda (s : State) : s.freeDatapath.agenda = s.agenda := rfl
@[simp] theorem State.freeDatapath_reads (s : State) : s.freeDatapath.reads = s.reads := rfl
@[simp] theorem State.freeDatapath_draws (s : State) : s.freeDatapath.draws = s.draws + 7 := rfl
@[simp] theorem State.freeDatapath_gen (s : State) : s.freeDatapath.gen = s.gen := rfl

/-! `State.accept` -/

@[simp] theorem State.accept_params (s : State) : s.accept.params = s.params := rfl
@[simp] theorem State.accept_seq (s : State) : s.accept.seq = s.seq := rfl
@[simp] theorem State.accept_done (s : State) : s.accept.done = false := rfl
@[simp] theorem State.accept_tableValid (s : State) : s.accept.tableValid = s.tableValid := rfl
@[simp] theorem State.accept_overread (s : State) : s.accept.overread = false := rfl
@[simp] theorem State.accept_underread (s : State) : s.accept.underread = false := rfl
@[simp] theorem State.accept_dropped (s : State) : s.accept.dropped = false := rfl
@[simp] theorem State.accept_err (s : State) : s.accept.err = .none := rfl
@[simp] theorem State.accept_inLen (s : State) : s.accept.inLen = s.inLen := rfl
@[simp] theorem State.accept_outCount (s : State) : s.accept.outCount = s.outCount := rfl
@[simp] theorem State.accept_outLen (s : State) : s.accept.outLen = s.outLen := rfl
@[simp] theorem State.accept_consumed (s : State) : s.accept.consumed = s.consumed := rfl
@[simp] theorem State.accept_taddrCtx (s : State) : s.accept.taddrCtx = s.taddrCtx := rfl
@[simp] theorem State.accept_taddrNode (s : State) : s.accept.taddrNode = s.taddrNode := rfl
@[simp] theorem State.accept_inLenL (s : State) : s.accept.inLenL = s.inLenL := rfl
@[simp] theorem State.accept_dp (s : State) : s.accept.dp = s.dp := rfl
@[simp] theorem State.accept_child (s : State) : s.accept.child = s.child := rfl
@[simp] theorem State.accept_unbuilt (s : State) : s.accept.unbuilt = s.unbuilt := rfl
@[simp] theorem State.accept_root (s : State) : s.accept.root = s.root := rfl
@[simp] theorem State.accept_scratch (s : State) : s.accept.scratch = s.scratch := rfl
@[simp] theorem State.accept_mem (s : State) : s.accept.mem = s.mem := rfl
@[simp] theorem State.accept_raced (s : State) : s.accept.raced = [] := rfl
@[simp] theorem State.accept_faults (s : State) : s.accept.faults = s.faults := rfl
@[simp] theorem State.accept_agenda (s : State) : s.accept.agenda = s.agenda := rfl
@[simp] theorem State.accept_reads (s : State) : s.accept.reads = s.reads := rfl
@[simp] theorem State.accept_draws (s : State) : s.accept.draws = s.draws := rfl
@[simp] theorem State.accept_gen (s : State) : s.accept.gen = s.gen := rfl

/-! `State.drop` -/

@[simp] theorem State.drop_params (s : State) : s.drop.params = s.params := rfl
@[simp] theorem State.drop_seq (s : State) : s.drop.seq = s.seq := rfl
@[simp] theorem State.drop_done (s : State) : s.drop.done = s.done := rfl
@[simp] theorem State.drop_tableValid (s : State) : s.drop.tableValid = s.tableValid := rfl
@[simp] theorem State.drop_overread (s : State) : s.drop.overread = s.overread := rfl
@[simp] theorem State.drop_underread (s : State) : s.drop.underread = s.underread := rfl
@[simp] theorem State.drop_dropped (s : State) : s.drop.dropped = true := rfl
@[simp] theorem State.drop_err (s : State) : s.drop.err = s.err := rfl
@[simp] theorem State.drop_inLen (s : State) : s.drop.inLen = s.inLen := rfl
@[simp] theorem State.drop_outCount (s : State) : s.drop.outCount = s.outCount := rfl
@[simp] theorem State.drop_outLen (s : State) : s.drop.outLen = s.outLen := rfl
@[simp] theorem State.drop_consumed (s : State) : s.drop.consumed = s.consumed := rfl
@[simp] theorem State.drop_taddrCtx (s : State) : s.drop.taddrCtx = s.taddrCtx := rfl
@[simp] theorem State.drop_taddrNode (s : State) : s.drop.taddrNode = s.taddrNode := rfl
@[simp] theorem State.drop_inLenL (s : State) : s.drop.inLenL = s.inLenL := rfl
@[simp] theorem State.drop_dp (s : State) : s.drop.dp = s.dp := rfl
@[simp] theorem State.drop_child (s : State) : s.drop.child = s.child := rfl
@[simp] theorem State.drop_unbuilt (s : State) : s.drop.unbuilt = s.unbuilt := rfl
@[simp] theorem State.drop_root (s : State) : s.drop.root = s.root := rfl
@[simp] theorem State.drop_scratch (s : State) : s.drop.scratch = s.scratch := rfl
@[simp] theorem State.drop_mem (s : State) : s.drop.mem = s.mem := rfl
@[simp] theorem State.drop_raced (s : State) : s.drop.raced = s.raced := rfl
@[simp] theorem State.drop_faults (s : State) : s.drop.faults = s.faults := rfl
@[simp] theorem State.drop_agenda (s : State) : s.drop.agenda = s.agenda := rfl
@[simp] theorem State.drop_reads (s : State) : s.drop.reads = s.reads := rfl
@[simp] theorem State.drop_draws (s : State) : s.drop.draws = s.draws := rfl
@[simp] theorem State.drop_gen (s : State) : s.drop.gen = s.gen := rfl

/-! `State.complete` -/

@[simp] theorem State.complete_params (s : State) (e : ErrCode) : (s.complete e).params = s.params := rfl
@[simp] theorem State.complete_seq (s : State) (e : ErrCode) : (s.complete e).seq = .idle := rfl
@[simp] theorem State.complete_done (s : State) (e : ErrCode) : (s.complete e).done = true := rfl
@[simp] theorem State.complete_tableValid (s : State) (e : ErrCode) : (s.complete e).tableValid = s.tableValid := rfl
@[simp] theorem State.complete_overread (s : State) (e : ErrCode) : (s.complete e).overread = s.overread := rfl
@[simp] theorem State.complete_underread (s : State) (e : ErrCode) : (s.complete e).underread = s.underread := rfl
@[simp] theorem State.complete_dropped (s : State) (e : ErrCode) : (s.complete e).dropped = s.dropped := rfl
@[simp] theorem State.complete_err (s : State) (e : ErrCode) : (s.complete e).err = e := rfl
@[simp] theorem State.complete_inLen (s : State) (e : ErrCode) : (s.complete e).inLen = s.inLen := rfl
@[simp] theorem State.complete_outCount (s : State) (e : ErrCode) : (s.complete e).outCount = s.outCount := rfl
@[simp] theorem State.complete_outLen (s : State) (e : ErrCode) : (s.complete e).outLen = s.outLen := rfl
@[simp] theorem State.complete_consumed (s : State) (e : ErrCode) : (s.complete e).consumed = s.consumed := rfl
@[simp] theorem State.complete_taddrCtx (s : State) (e : ErrCode) : (s.complete e).taddrCtx = s.taddrCtx := rfl
@[simp] theorem State.complete_taddrNode (s : State) (e : ErrCode) : (s.complete e).taddrNode = s.taddrNode := rfl
@[simp] theorem State.complete_inLenL (s : State) (e : ErrCode) : (s.complete e).inLenL = s.inLenL := rfl
@[simp] theorem State.complete_dp (s : State) (e : ErrCode) : (s.complete e).dp = Datapath.free s.draws := rfl
@[simp] theorem State.complete_child (s : State) (e : ErrCode) : (s.complete e).child = s.child := rfl
@[simp] theorem State.complete_unbuilt (s : State) (e : ErrCode) : (s.complete e).unbuilt = s.unbuilt := rfl
@[simp] theorem State.complete_root (s : State) (e : ErrCode) : (s.complete e).root = s.root := rfl
@[simp] theorem State.complete_scratch (s : State) (e : ErrCode) : (s.complete e).scratch = s.scratch := rfl
@[simp] theorem State.complete_mem (s : State) (e : ErrCode) : (s.complete e).mem = s.mem := rfl
@[simp] theorem State.complete_raced (s : State) (e : ErrCode) : (s.complete e).raced = [] := rfl
@[simp] theorem State.complete_faults (s : State) (e : ErrCode) : (s.complete e).faults = s.faults := rfl
@[simp] theorem State.complete_agenda (s : State) (e : ErrCode) : (s.complete e).agenda = s.agenda := rfl
@[simp] theorem State.complete_reads (s : State) (e : ErrCode) : (s.complete e).reads = s.reads := rfl
@[simp] theorem State.complete_draws (s : State) (e : ErrCode) : (s.complete e).draws = s.draws + 7 := rfl
@[simp] theorem State.complete_gen (s : State) (e : ErrCode) : (s.complete e).gen = s.gen := rfl

/-! `State.raise` -/

@[simp] theorem State.raise_params (s : State) (e : ErrCode) : (s.raise e).params = s.params := rfl
@[simp] theorem State.raise_seq (s : State) (e : ErrCode) : (s.raise e).seq = .idle := rfl
@[simp] theorem State.raise_done (s : State) (e : ErrCode) : (s.raise e).done = true := rfl
@[simp] theorem State.raise_tableValid (s : State) (e : ErrCode) : (s.raise e).tableValid = s.tableValid := rfl
@[simp] theorem State.raise_overread (s : State) (e : ErrCode) : (s.raise e).overread = false := rfl
@[simp] theorem State.raise_underread (s : State) (e : ErrCode) : (s.raise e).underread = false := rfl
@[simp] theorem State.raise_dropped (s : State) (e : ErrCode) : (s.raise e).dropped = s.dropped := rfl
@[simp] theorem State.raise_err (s : State) (e : ErrCode) : (s.raise e).err = e := rfl
@[simp] theorem State.raise_inLen (s : State) (e : ErrCode) : (s.raise e).inLen = s.inLen := rfl
@[simp] theorem State.raise_outCount (s : State) (e : ErrCode) : (s.raise e).outCount = s.outCount := rfl
@[simp] theorem State.raise_outLen (s : State) (e : ErrCode) : (s.raise e).outLen = s.outLen := rfl
@[simp] theorem State.raise_consumed (s : State) (e : ErrCode) : (s.raise e).consumed = s.consumed := rfl
@[simp] theorem State.raise_taddrCtx (s : State) (e : ErrCode) : (s.raise e).taddrCtx = s.taddrCtx := rfl
@[simp] theorem State.raise_taddrNode (s : State) (e : ErrCode) : (s.raise e).taddrNode = s.taddrNode := rfl
@[simp] theorem State.raise_inLenL (s : State) (e : ErrCode) : (s.raise e).inLenL = s.inLenL := rfl
@[simp] theorem State.raise_dp (s : State) (e : ErrCode) : (s.raise e).dp = Datapath.free s.draws := rfl
@[simp] theorem State.raise_child (s : State) (e : ErrCode) : (s.raise e).child = s.child := rfl
@[simp] theorem State.raise_unbuilt (s : State) (e : ErrCode) : (s.raise e).unbuilt = s.unbuilt := rfl
@[simp] theorem State.raise_root (s : State) (e : ErrCode) : (s.raise e).root = s.root := rfl
@[simp] theorem State.raise_scratch (s : State) (e : ErrCode) : (s.raise e).scratch = s.scratch := rfl
@[simp] theorem State.raise_mem (s : State) (e : ErrCode) : (s.raise e).mem = s.mem := rfl
@[simp] theorem State.raise_raced (s : State) (e : ErrCode) : (s.raise e).raced = [] := rfl
@[simp] theorem State.raise_faults (s : State) (e : ErrCode) : (s.raise e).faults = s.faults := rfl
@[simp] theorem State.raise_agenda (s : State) (e : ErrCode) : (s.raise e).agenda = s.agenda := rfl
@[simp] theorem State.raise_reads (s : State) (e : ErrCode) : (s.raise e).reads = s.reads := rfl
@[simp] theorem State.raise_draws (s : State) (e : ErrCode) : (s.raise e).draws = s.draws + 7 := rfl
@[simp] theorem State.raise_gen (s : State) (e : ErrCode) : (s.raise e).gen = s.gen := rfl

/-! `State.setTaddr` -/

@[simp] theorem State.setTaddr_params (s : State) (v : Word) : (s.setTaddr v).params = s.params := rfl
@[simp] theorem State.setTaddr_seq (s : State) (v : Word) : (s.setTaddr v).seq = s.seq := rfl
@[simp] theorem State.setTaddr_done (s : State) (v : Word) : (s.setTaddr v).done = s.done := rfl
@[simp] theorem State.setTaddr_tableValid (s : State) (v : Word) : (s.setTaddr v).tableValid = s.tableValid := rfl
@[simp] theorem State.setTaddr_overread (s : State) (v : Word) : (s.setTaddr v).overread = s.overread := rfl
@[simp] theorem State.setTaddr_underread (s : State) (v : Word) : (s.setTaddr v).underread = s.underread := rfl
@[simp] theorem State.setTaddr_dropped (s : State) (v : Word) : (s.setTaddr v).dropped = s.dropped := rfl
@[simp] theorem State.setTaddr_err (s : State) (v : Word) : (s.setTaddr v).err = s.err := rfl
@[simp] theorem State.setTaddr_inLen (s : State) (v : Word) : (s.setTaddr v).inLen = s.inLen := rfl
@[simp] theorem State.setTaddr_outCount (s : State) (v : Word) : (s.setTaddr v).outCount = s.outCount := rfl
@[simp] theorem State.setTaddr_outLen (s : State) (v : Word) : (s.setTaddr v).outLen = s.outLen := rfl
@[simp] theorem State.setTaddr_consumed (s : State) (v : Word) : (s.setTaddr v).consumed = s.consumed := rfl
@[simp] theorem State.setTaddr_taddrCtx (s : State) (v : Word) : (s.setTaddr v).taddrCtx = v.extractLsb' 0 8 := rfl
@[simp] theorem State.setTaddr_taddrNode (s : State) (v : Word) : (s.setTaddr v).taddrNode = v.extractLsb' 16 9 := rfl
@[simp] theorem State.setTaddr_inLenL (s : State) (v : Word) : (s.setTaddr v).inLenL = s.inLenL := rfl
@[simp] theorem State.setTaddr_dp (s : State) (v : Word) : (s.setTaddr v).dp = s.dp := rfl
@[simp] theorem State.setTaddr_child (s : State) (v : Word) : (s.setTaddr v).child = s.child := rfl
@[simp] theorem State.setTaddr_unbuilt (s : State) (v : Word) : (s.setTaddr v).unbuilt = s.unbuilt := rfl
@[simp] theorem State.setTaddr_root (s : State) (v : Word) : (s.setTaddr v).root = s.root := rfl
@[simp] theorem State.setTaddr_scratch (s : State) (v : Word) : (s.setTaddr v).scratch = s.scratch := rfl
@[simp] theorem State.setTaddr_mem (s : State) (v : Word) : (s.setTaddr v).mem = s.mem := rfl
@[simp] theorem State.setTaddr_raced (s : State) (v : Word) : (s.setTaddr v).raced = s.raced := rfl
@[simp] theorem State.setTaddr_faults (s : State) (v : Word) : (s.setTaddr v).faults = s.faults := rfl
@[simp] theorem State.setTaddr_agenda (s : State) (v : Word) : (s.setTaddr v).agenda = s.agenda := rfl
@[simp] theorem State.setTaddr_reads (s : State) (v : Word) : (s.setTaddr v).reads = s.reads := rfl
@[simp] theorem State.setTaddr_draws (s : State) (v : Word) : (s.setTaddr v).draws = s.draws := rfl
@[simp] theorem State.setTaddr_gen (s : State) (v : Word) : (s.setTaddr v).gen = s.gen := rfl

/-! `State.freeScratch` -/

@[simp] theorem State.freeScratch_params (s : State) : s.freeScratch.params = s.params := rfl
@[simp] theorem State.freeScratch_seq (s : State) : s.freeScratch.seq = s.seq := rfl
@[simp] theorem State.freeScratch_done (s : State) : s.freeScratch.done = s.done := rfl
@[simp] theorem State.freeScratch_tableValid (s : State) : s.freeScratch.tableValid = s.tableValid := rfl
@[simp] theorem State.freeScratch_overread (s : State) : s.freeScratch.overread = s.overread := rfl
@[simp] theorem State.freeScratch_underread (s : State) : s.freeScratch.underread = s.underread := rfl
@[simp] theorem State.freeScratch_dropped (s : State) : s.freeScratch.dropped = s.dropped := rfl
@[simp] theorem State.freeScratch_err (s : State) : s.freeScratch.err = s.err := rfl
@[simp] theorem State.freeScratch_inLen (s : State) : s.freeScratch.inLen = s.inLen := rfl
@[simp] theorem State.freeScratch_outCount (s : State) : s.freeScratch.outCount = s.outCount := rfl
@[simp] theorem State.freeScratch_outLen (s : State) : s.freeScratch.outLen = s.outLen := rfl
@[simp] theorem State.freeScratch_consumed (s : State) : s.freeScratch.consumed = s.consumed := rfl
@[simp] theorem State.freeScratch_taddrCtx (s : State) : s.freeScratch.taddrCtx = s.taddrCtx := rfl
@[simp] theorem State.freeScratch_taddrNode (s : State) : s.freeScratch.taddrNode = s.taddrNode := rfl
@[simp] theorem State.freeScratch_inLenL (s : State) : s.freeScratch.inLenL = s.inLenL := rfl
@[simp] theorem State.freeScratch_dp (s : State) : s.freeScratch.dp = s.dp := rfl
@[simp] theorem State.freeScratch_child (s : State) : s.freeScratch.child = s.child := rfl
@[simp] theorem State.freeScratch_unbuilt (s : State) : s.freeScratch.unbuilt = s.unbuilt := rfl
@[simp] theorem State.freeScratch_root (s : State) : s.freeScratch.root = s.root := rfl
@[simp] theorem State.freeScratch_scratch (s : State) : s.freeScratch.scratch = Scratch.free s.draws := rfl
@[simp] theorem State.freeScratch_mem (s : State) : s.freeScratch.mem = s.mem := rfl
@[simp] theorem State.freeScratch_raced (s : State) : s.freeScratch.raced = s.raced := rfl
@[simp] theorem State.freeScratch_faults (s : State) : s.freeScratch.faults = s.faults := rfl
@[simp] theorem State.freeScratch_agenda (s : State) : s.freeScratch.agenda = s.agenda := rfl
@[simp] theorem State.freeScratch_reads (s : State) : s.freeScratch.reads = s.reads := rfl
@[simp] theorem State.freeScratch_draws (s : State) : s.freeScratch.draws = s.draws + 2 := rfl
@[simp] theorem State.freeScratch_gen (s : State) : s.freeScratch.gen = s.gen := rfl

/-! `State.freeUnbuilt` -/

@[simp] theorem State.freeUnbuilt_params (s : State) : s.freeUnbuilt.params = s.params := rfl
@[simp] theorem State.freeUnbuilt_seq (s : State) : s.freeUnbuilt.seq = s.seq := rfl
@[simp] theorem State.freeUnbuilt_done (s : State) : s.freeUnbuilt.done = s.done := rfl
@[simp] theorem State.freeUnbuilt_tableValid (s : State) : s.freeUnbuilt.tableValid = s.tableValid := rfl
@[simp] theorem State.freeUnbuilt_overread (s : State) : s.freeUnbuilt.overread = s.overread := rfl
@[simp] theorem State.freeUnbuilt_underread (s : State) : s.freeUnbuilt.underread = s.underread := rfl
@[simp] theorem State.freeUnbuilt_dropped (s : State) : s.freeUnbuilt.dropped = s.dropped := rfl
@[simp] theorem State.freeUnbuilt_err (s : State) : s.freeUnbuilt.err = s.err := rfl
@[simp] theorem State.freeUnbuilt_inLen (s : State) : s.freeUnbuilt.inLen = s.inLen := rfl
@[simp] theorem State.freeUnbuilt_outCount (s : State) : s.freeUnbuilt.outCount = s.outCount := rfl
@[simp] theorem State.freeUnbuilt_outLen (s : State) : s.freeUnbuilt.outLen = s.outLen := rfl
@[simp] theorem State.freeUnbuilt_consumed (s : State) : s.freeUnbuilt.consumed = s.consumed := rfl
@[simp] theorem State.freeUnbuilt_taddrCtx (s : State) : s.freeUnbuilt.taddrCtx = s.taddrCtx := rfl
@[simp] theorem State.freeUnbuilt_taddrNode (s : State) : s.freeUnbuilt.taddrNode = s.taddrNode := rfl
@[simp] theorem State.freeUnbuilt_inLenL (s : State) : s.freeUnbuilt.inLenL = s.inLenL := rfl
@[simp] theorem State.freeUnbuilt_dp (s : State) : s.freeUnbuilt.dp = s.dp := rfl
@[simp] theorem State.freeUnbuilt_child (s : State) : s.freeUnbuilt.child = s.child := rfl
@[simp] theorem State.freeUnbuilt_unbuilt (s : State) : s.freeUnbuilt.unbuilt = s.draws := rfl
@[simp] theorem State.freeUnbuilt_root (s : State) : s.freeUnbuilt.root = s.root := rfl
@[simp] theorem State.freeUnbuilt_scratch (s : State) : s.freeUnbuilt.scratch = s.scratch := rfl
@[simp] theorem State.freeUnbuilt_mem (s : State) : s.freeUnbuilt.mem = s.mem := rfl
@[simp] theorem State.freeUnbuilt_raced (s : State) : s.freeUnbuilt.raced = s.raced := rfl
@[simp] theorem State.freeUnbuilt_faults (s : State) : s.freeUnbuilt.faults = s.faults := rfl
@[simp] theorem State.freeUnbuilt_agenda (s : State) : s.freeUnbuilt.agenda = s.agenda := rfl
@[simp] theorem State.freeUnbuilt_reads (s : State) : s.freeUnbuilt.reads = s.reads := rfl
@[simp] theorem State.freeUnbuilt_draws (s : State) : s.freeUnbuilt.draws = s.draws + 1 := rfl
@[simp] theorem State.freeUnbuilt_gen (s : State) : s.freeUnbuilt.gen = s.gen := rfl

/-! `State.returnData` -/

@[simp] theorem State.returnData_params (s : State) (a : Offset) (n : Nat) (d : Word) : (s.returnData a n d).params = s.params := rfl
@[simp] theorem State.returnData_seq (s : State) (a : Offset) (n : Nat) (d : Word) : (s.returnData a n d).seq = s.seq := rfl
@[simp] theorem State.returnData_done (s : State) (a : Offset) (n : Nat) (d : Word) : (s.returnData a n d).done = s.done := rfl
@[simp] theorem State.returnData_tableValid (s : State) (a : Offset) (n : Nat) (d : Word) : (s.returnData a n d).tableValid = s.tableValid := rfl
@[simp] theorem State.returnData_overread (s : State) (a : Offset) (n : Nat) (d : Word) : (s.returnData a n d).overread = s.overread := rfl
@[simp] theorem State.returnData_underread (s : State) (a : Offset) (n : Nat) (d : Word) : (s.returnData a n d).underread = s.underread := rfl
@[simp] theorem State.returnData_dropped (s : State) (a : Offset) (n : Nat) (d : Word) : (s.returnData a n d).dropped = s.dropped := rfl
@[simp] theorem State.returnData_err (s : State) (a : Offset) (n : Nat) (d : Word) : (s.returnData a n d).err = s.err := rfl
@[simp] theorem State.returnData_inLen (s : State) (a : Offset) (n : Nat) (d : Word) : (s.returnData a n d).inLen = s.inLen := rfl
@[simp] theorem State.returnData_outCount (s : State) (a : Offset) (n : Nat) (d : Word) : (s.returnData a n d).outCount = s.outCount := rfl
@[simp] theorem State.returnData_outLen (s : State) (a : Offset) (n : Nat) (d : Word) : (s.returnData a n d).outLen = s.outLen := rfl
@[simp] theorem State.returnData_consumed (s : State) (a : Offset) (n : Nat) (d : Word) : (s.returnData a n d).consumed = s.consumed := rfl
@[simp] theorem State.returnData_taddrCtx (s : State) (a : Offset) (n : Nat) (d : Word) : (s.returnData a n d).taddrCtx = s.taddrCtx := rfl
@[simp] theorem State.returnData_taddrNode (s : State) (a : Offset) (n : Nat) (d : Word) : (s.returnData a n d).taddrNode = s.taddrNode := rfl
@[simp] theorem State.returnData_inLenL (s : State) (a : Offset) (n : Nat) (d : Word) : (s.returnData a n d).inLenL = s.inLenL := rfl
@[simp] theorem State.returnData_dp (s : State) (a : Offset) (n : Nat) (d : Word) : (s.returnData a n d).dp = s.dp := rfl
@[simp] theorem State.returnData_child (s : State) (a : Offset) (n : Nat) (d : Word) : (s.returnData a n d).child = s.child := rfl
@[simp] theorem State.returnData_unbuilt (s : State) (a : Offset) (n : Nat) (d : Word) : (s.returnData a n d).unbuilt = s.unbuilt := rfl
@[simp] theorem State.returnData_root (s : State) (a : Offset) (n : Nat) (d : Word) : (s.returnData a n d).root = s.root := rfl
@[simp] theorem State.returnData_scratch (s : State) (a : Offset) (n : Nat) (d : Word) : (s.returnData a n d).scratch = s.scratch := rfl
@[simp] theorem State.returnData_mem (s : State) (a : Offset) (n : Nat) (d : Word) : (s.returnData a n d).mem = s.mem := rfl
@[simp] theorem State.returnData_raced (s : State) (a : Offset) (n : Nat) (d : Word) : (s.returnData a n d).raced = s.raced := rfl
@[simp] theorem State.returnData_faults (s : State) (a : Offset) (n : Nat) (d : Word) : (s.returnData a n d).faults = s.faults := rfl
@[simp] theorem State.returnData_agenda (s : State) (a : Offset) (n : Nat) (d : Word) : (s.returnData a n d).agenda = s.agenda := rfl
@[simp] theorem State.returnData_reads (s : State) (a : Offset) (n : Nat) (d : Word) : (s.returnData a n d).reads = { a := a, n := n, data := d } :: s.reads := rfl
@[simp] theorem State.returnData_draws (s : State) (a : Offset) (n : Nat) (d : Word) : (s.returnData a n d).draws = s.draws + 1 := rfl
@[simp] theorem State.returnData_gen (s : State) (a : Offset) (n : Nat) (d : Word) : (s.returnData a n d).gen = s.gen := rfl

/-! `State.walkResults` -/

@[simp] theorem State.walkResults_params (s : State) : s.walkResults.params = s.params := rfl
@[simp] theorem State.walkResults_seq (s : State) : s.walkResults.seq = s.seq := rfl
@[simp] theorem State.walkResults_done (s : State) : s.walkResults.done = s.done := rfl
@[simp] theorem State.walkResults_tableValid (s : State) : s.walkResults.tableValid = s.tableValid := rfl
@[simp] theorem State.walkResults_overread (s : State) : s.walkResults.overread = s.overread := rfl
@[simp] theorem State.walkResults_underread (s : State) : s.walkResults.underread = s.underread := rfl
@[simp] theorem State.walkResults_dropped (s : State) : s.walkResults.dropped = s.dropped := rfl
@[simp] theorem State.walkResults_err (s : State) : s.walkResults.err = s.err := rfl
@[simp] theorem State.walkResults_inLen (s : State) : s.walkResults.inLen = s.inLen := rfl
@[simp] theorem State.walkResults_outCount (s : State) : s.walkResults.outCount = s.outCount := rfl
@[simp] theorem State.walkResults_outLen (s : State) : s.walkResults.outLen = s.dp.e := rfl
@[simp] theorem State.walkResults_consumed (s : State) : s.walkResults.consumed = s.dp.off := rfl
@[simp] theorem State.walkResults_taddrCtx (s : State) : s.walkResults.taddrCtx = s.taddrCtx := rfl
@[simp] theorem State.walkResults_taddrNode (s : State) : s.walkResults.taddrNode = s.taddrNode := rfl
@[simp] theorem State.walkResults_inLenL (s : State) : s.walkResults.inLenL = s.inLenL := rfl
@[simp] theorem State.walkResults_dp (s : State) : s.walkResults.dp = s.dp := rfl
@[simp] theorem State.walkResults_child (s : State) : s.walkResults.child = s.child := rfl
@[simp] theorem State.walkResults_unbuilt (s : State) : s.walkResults.unbuilt = s.unbuilt := rfl
@[simp] theorem State.walkResults_root (s : State) : s.walkResults.root = s.root := rfl
@[simp] theorem State.walkResults_scratch (s : State) : s.walkResults.scratch = s.scratch := rfl
@[simp] theorem State.walkResults_mem (s : State) : s.walkResults.mem = s.mem := rfl
@[simp] theorem State.walkResults_raced (s : State) : s.walkResults.raced = s.raced := rfl
@[simp] theorem State.walkResults_faults (s : State) : s.walkResults.faults = s.faults := rfl
@[simp] theorem State.walkResults_agenda (s : State) : s.walkResults.agenda = s.agenda := rfl
@[simp] theorem State.walkResults_reads (s : State) : s.walkResults.reads = s.reads := rfl
@[simp] theorem State.walkResults_draws (s : State) : s.walkResults.draws = s.draws := rfl
@[simp] theorem State.walkResults_gen (s : State) : s.walkResults.gen = s.gen := rfl

/-! `State.walkFinish` -/

@[simp] theorem State.walkFinish_params (s : State) : s.walkFinish.params = s.params := rfl
@[simp] theorem State.walkFinish_seq (s : State) : s.walkFinish.seq = .idle := rfl
@[simp] theorem State.walkFinish_done (s : State) : s.walkFinish.done = true := rfl
@[simp] theorem State.walkFinish_tableValid (s : State) : s.walkFinish.tableValid = s.tableValid := rfl
@[simp] theorem State.walkFinish_overread (s : State) : s.walkFinish.overread = overreadFlag s.dp.off s.inLenL := rfl
@[simp] theorem State.walkFinish_underread (s : State) : s.walkFinish.underread = underreadFlag s.dp.off s.inLenL := rfl
@[simp] theorem State.walkFinish_dropped (s : State) : s.walkFinish.dropped = s.dropped := rfl
@[simp] theorem State.walkFinish_err (s : State) : s.walkFinish.err = .none := rfl
@[simp] theorem State.walkFinish_inLen (s : State) : s.walkFinish.inLen = s.inLen := rfl
@[simp] theorem State.walkFinish_outCount (s : State) : s.walkFinish.outCount = s.outCount := rfl
@[simp] theorem State.walkFinish_outLen (s : State) : s.walkFinish.outLen = s.dp.e := rfl
@[simp] theorem State.walkFinish_consumed (s : State) : s.walkFinish.consumed = s.dp.off := rfl
@[simp] theorem State.walkFinish_taddrCtx (s : State) : s.walkFinish.taddrCtx = s.taddrCtx := rfl
@[simp] theorem State.walkFinish_taddrNode (s : State) : s.walkFinish.taddrNode = s.taddrNode := rfl
@[simp] theorem State.walkFinish_inLenL (s : State) : s.walkFinish.inLenL = s.inLenL := rfl
@[simp] theorem State.walkFinish_dp (s : State) : s.walkFinish.dp = Datapath.free s.draws := rfl
@[simp] theorem State.walkFinish_child (s : State) : s.walkFinish.child = s.child := rfl
@[simp] theorem State.walkFinish_unbuilt (s : State) : s.walkFinish.unbuilt = s.unbuilt := rfl
@[simp] theorem State.walkFinish_root (s : State) : s.walkFinish.root = s.root := rfl
@[simp] theorem State.walkFinish_scratch (s : State) : s.walkFinish.scratch = s.scratch := rfl
@[simp] theorem State.walkFinish_mem (s : State) : s.walkFinish.mem = s.mem := rfl
@[simp] theorem State.walkFinish_raced (s : State) : s.walkFinish.raced = [] := rfl
@[simp] theorem State.walkFinish_faults (s : State) : s.walkFinish.faults = s.faults := rfl
@[simp] theorem State.walkFinish_agenda (s : State) : s.walkFinish.agenda = s.agenda := rfl
@[simp] theorem State.walkFinish_reads (s : State) : s.walkFinish.reads = s.reads := rfl
@[simp] theorem State.walkFinish_draws (s : State) : s.walkFinish.draws = s.draws + 7 := rfl
@[simp] theorem State.walkFinish_gen (s : State) : s.walkFinish.gen = s.gen := rfl

/-! `State.walkError` -/

@[simp] theorem State.walkError_params (s : State) (e : ErrCode) : (s.walkError e).params = s.params := rfl
@[simp] theorem State.walkError_seq (s : State) (e : ErrCode) : (s.walkError e).seq = .idle := rfl
@[simp] theorem State.walkError_done (s : State) (e : ErrCode) : (s.walkError e).done = true := rfl
@[simp] theorem State.walkError_tableValid (s : State) (e : ErrCode) : (s.walkError e).tableValid = s.tableValid := rfl
@[simp] theorem State.walkError_overread (s : State) (e : ErrCode) : (s.walkError e).overread = false := rfl
@[simp] theorem State.walkError_underread (s : State) (e : ErrCode) : (s.walkError e).underread = false := rfl
@[simp] theorem State.walkError_dropped (s : State) (e : ErrCode) : (s.walkError e).dropped = s.dropped := rfl
@[simp] theorem State.walkError_err (s : State) (e : ErrCode) : (s.walkError e).err = e := rfl
@[simp] theorem State.walkError_inLen (s : State) (e : ErrCode) : (s.walkError e).inLen = s.inLen := rfl
@[simp] theorem State.walkError_outCount (s : State) (e : ErrCode) : (s.walkError e).outCount = s.outCount := rfl
@[simp] theorem State.walkError_outLen (s : State) (e : ErrCode) : (s.walkError e).outLen = s.dp.e := rfl
@[simp] theorem State.walkError_consumed (s : State) (e : ErrCode) : (s.walkError e).consumed = s.dp.off := rfl
@[simp] theorem State.walkError_taddrCtx (s : State) (e : ErrCode) : (s.walkError e).taddrCtx = s.taddrCtx := rfl
@[simp] theorem State.walkError_taddrNode (s : State) (e : ErrCode) : (s.walkError e).taddrNode = s.taddrNode := rfl
@[simp] theorem State.walkError_inLenL (s : State) (e : ErrCode) : (s.walkError e).inLenL = s.inLenL := rfl
@[simp] theorem State.walkError_dp (s : State) (e : ErrCode) : (s.walkError e).dp = Datapath.free s.draws := rfl
@[simp] theorem State.walkError_child (s : State) (e : ErrCode) : (s.walkError e).child = s.child := rfl
@[simp] theorem State.walkError_unbuilt (s : State) (e : ErrCode) : (s.walkError e).unbuilt = s.unbuilt := rfl
@[simp] theorem State.walkError_root (s : State) (e : ErrCode) : (s.walkError e).root = s.root := rfl
@[simp] theorem State.walkError_scratch (s : State) (e : ErrCode) : (s.walkError e).scratch = s.scratch := rfl
@[simp] theorem State.walkError_mem (s : State) (e : ErrCode) : (s.walkError e).mem = s.mem := rfl
@[simp] theorem State.walkError_raced (s : State) (e : ErrCode) : (s.walkError e).raced = [] := rfl
@[simp] theorem State.walkError_faults (s : State) (e : ErrCode) : (s.walkError e).faults = s.faults := rfl
@[simp] theorem State.walkError_agenda (s : State) (e : ErrCode) : (s.walkError e).agenda = s.agenda := rfl
@[simp] theorem State.walkError_reads (s : State) (e : ErrCode) : (s.walkError e).reads = s.reads := rfl
@[simp] theorem State.walkError_draws (s : State) (e : ErrCode) : (s.walkError e).draws = s.draws + 7 := rfl
@[simp] theorem State.walkError_gen (s : State) (e : ErrCode) : (s.walkError e).gen = s.gen := rfl

/-! `State.buildComplete` -/

@[simp] theorem State.buildComplete_params (s : State) : s.buildComplete.params = s.params := rfl
@[simp] theorem State.buildComplete_seq (s : State) : s.buildComplete.seq = .idle := rfl
@[simp] theorem State.buildComplete_done (s : State) : s.buildComplete.done = true := rfl
@[simp] theorem State.buildComplete_tableValid (s : State) : s.buildComplete.tableValid = true := rfl
@[simp] theorem State.buildComplete_overread (s : State) : s.buildComplete.overread = s.overread := rfl
@[simp] theorem State.buildComplete_underread (s : State) : s.buildComplete.underread = s.underread := rfl
@[simp] theorem State.buildComplete_dropped (s : State) : s.buildComplete.dropped = s.dropped := rfl
@[simp] theorem State.buildComplete_err (s : State) : s.buildComplete.err = .none := rfl
@[simp] theorem State.buildComplete_inLen (s : State) : s.buildComplete.inLen = s.inLen := rfl
@[simp] theorem State.buildComplete_outCount (s : State) : s.buildComplete.outCount = s.outCount := rfl
@[simp] theorem State.buildComplete_outLen (s : State) : s.buildComplete.outLen = s.outLen := rfl
@[simp] theorem State.buildComplete_consumed (s : State) : s.buildComplete.consumed = s.consumed := rfl
@[simp] theorem State.buildComplete_taddrCtx (s : State) : s.buildComplete.taddrCtx = s.taddrCtx := rfl
@[simp] theorem State.buildComplete_taddrNode (s : State) : s.buildComplete.taddrNode = s.taddrNode := rfl
@[simp] theorem State.buildComplete_inLenL (s : State) : s.buildComplete.inLenL = s.inLenL := rfl
@[simp] theorem State.buildComplete_dp (s : State) : s.buildComplete.dp = Datapath.free (s.draws + 3) := rfl
@[simp] theorem State.buildComplete_child (s : State) : s.buildComplete.child = s.child := rfl
@[simp] theorem State.buildComplete_unbuilt (s : State) : s.buildComplete.unbuilt = s.draws + 2 := rfl
@[simp] theorem State.buildComplete_root (s : State) : s.buildComplete.root = s.root := rfl
@[simp] theorem State.buildComplete_scratch (s : State) : s.buildComplete.scratch = Scratch.free s.draws := rfl
@[simp] theorem State.buildComplete_mem (s : State) : s.buildComplete.mem = s.mem := rfl
@[simp] theorem State.buildComplete_raced (s : State) : s.buildComplete.raced = [] := rfl
@[simp] theorem State.buildComplete_faults (s : State) : s.buildComplete.faults = s.faults := rfl
@[simp] theorem State.buildComplete_agenda (s : State) : s.buildComplete.agenda = s.agenda := rfl
@[simp] theorem State.buildComplete_reads (s : State) : s.buildComplete.reads = s.reads := rfl
@[simp] theorem State.buildComplete_draws (s : State) : s.buildComplete.draws = s.draws + 10 := rfl
@[simp] theorem State.buildComplete_gen (s : State) : s.buildComplete.gen = s.gen := rfl

/-! `State.bitStep` -/

@[simp] theorem State.bitStep_params (s : State) : s.bitStep.params = s.params := rfl
@[simp] theorem State.bitStep_seq (s : State) : s.bitStep.seq = s.seq := rfl
@[simp] theorem State.bitStep_done (s : State) : s.bitStep.done = s.done := rfl
@[simp] theorem State.bitStep_tableValid (s : State) : s.bitStep.tableValid = s.tableValid := rfl
@[simp] theorem State.bitStep_overread (s : State) : s.bitStep.overread = s.overread := rfl
@[simp] theorem State.bitStep_underread (s : State) : s.bitStep.underread = s.underread := rfl
@[simp] theorem State.bitStep_dropped (s : State) : s.bitStep.dropped = s.dropped := rfl
@[simp] theorem State.bitStep_err (s : State) : s.bitStep.err = s.err := rfl
@[simp] theorem State.bitStep_inLen (s : State) : s.bitStep.inLen = s.inLen := rfl
@[simp] theorem State.bitStep_outCount (s : State) : s.bitStep.outCount = s.outCount := rfl
@[simp] theorem State.bitStep_outLen (s : State) : s.bitStep.outLen = s.outLen := rfl
@[simp] theorem State.bitStep_consumed (s : State) : s.bitStep.consumed = s.consumed := rfl
@[simp] theorem State.bitStep_taddrCtx (s : State) : s.bitStep.taddrCtx = s.taddrCtx := rfl
@[simp] theorem State.bitStep_taddrNode (s : State) : s.bitStep.taddrNode = s.taddrNode := rfl
@[simp] theorem State.bitStep_inLenL (s : State) : s.bitStep.inLenL = s.inLenL := rfl
@[simp] theorem State.bitStep_dp (s : State) : s.bitStep.dp = { s.dp with node := s.childOf s.dp.ctx s.dp.node (slotBit s.dp.byte s.dp.slot), slot := s.dp.slot + 1 } := rfl
@[simp] theorem State.bitStep_child (s : State) : s.bitStep.child = s.child := rfl
@[simp] theorem State.bitStep_unbuilt (s : State) : s.bitStep.unbuilt = s.unbuilt := rfl
@[simp] theorem State.bitStep_root (s : State) : s.bitStep.root = s.root := rfl
@[simp] theorem State.bitStep_scratch (s : State) : s.bitStep.scratch = s.scratch := rfl
@[simp] theorem State.bitStep_mem (s : State) : s.bitStep.mem = s.mem := rfl
@[simp] theorem State.bitStep_raced (s : State) : s.bitStep.raced = s.raced := rfl
@[simp] theorem State.bitStep_faults (s : State) : s.bitStep.faults = s.faults := rfl
@[simp] theorem State.bitStep_agenda (s : State) : s.bitStep.agenda = s.agenda := rfl
@[simp] theorem State.bitStep_reads (s : State) : s.bitStep.reads = s.reads := rfl
@[simp] theorem State.bitStep_draws (s : State) : s.bitStep.draws = s.draws := rfl
@[simp] theorem State.bitStep_gen (s : State) : s.bitStep.gen = s.gen := rfl

/-! `State.switchContext` -/

@[simp] theorem State.switchContext_params (s : State) : s.switchContext.params = s.params := rfl
@[simp] theorem State.switchContext_seq (s : State) : s.switchContext.seq = s.seq := rfl
@[simp] theorem State.switchContext_done (s : State) : s.switchContext.done = s.done := rfl
@[simp] theorem State.switchContext_tableValid (s : State) : s.switchContext.tableValid = s.tableValid := rfl
@[simp] theorem State.switchContext_overread (s : State) : s.switchContext.overread = s.overread := rfl
@[simp] theorem State.switchContext_underread (s : State) : s.switchContext.underread = s.underread := rfl
@[simp] theorem State.switchContext_dropped (s : State) : s.switchContext.dropped = s.dropped := rfl
@[simp] theorem State.switchContext_err (s : State) : s.switchContext.err = s.err := rfl
@[simp] theorem State.switchContext_inLen (s : State) : s.switchContext.inLen = s.inLen := rfl
@[simp] theorem State.switchContext_outCount (s : State) : s.switchContext.outCount = s.outCount := rfl
@[simp] theorem State.switchContext_outLen (s : State) : s.switchContext.outLen = s.outLen := rfl
@[simp] theorem State.switchContext_consumed (s : State) : s.switchContext.consumed = s.consumed := rfl
@[simp] theorem State.switchContext_taddrCtx (s : State) : s.switchContext.taddrCtx = s.taddrCtx := rfl
@[simp] theorem State.switchContext_taddrNode (s : State) : s.switchContext.taddrNode = s.taddrNode := rfl
@[simp] theorem State.switchContext_inLenL (s : State) : s.switchContext.inLenL = s.inLenL := rfl
@[simp] theorem State.switchContext_dp (s : State) : s.switchContext.dp = { s.dp with ctx := s.dp.node.setWidth 8, node := s.rootOf (s.dp.node.setWidth 8) } := rfl
@[simp] theorem State.switchContext_child (s : State) : s.switchContext.child = s.child := rfl
@[simp] theorem State.switchContext_unbuilt (s : State) : s.switchContext.unbuilt = s.unbuilt := rfl
@[simp] theorem State.switchContext_root (s : State) : s.switchContext.root = s.root := rfl
@[simp] theorem State.switchContext_scratch (s : State) : s.switchContext.scratch = s.scratch := rfl
@[simp] theorem State.switchContext_mem (s : State) : s.switchContext.mem = s.mem := rfl
@[simp] theorem State.switchContext_raced (s : State) : s.switchContext.raced = s.raced := rfl
@[simp] theorem State.switchContext_faults (s : State) : s.switchContext.faults = s.faults := rfl
@[simp] theorem State.switchContext_agenda (s : State) : s.switchContext.agenda = s.agenda := rfl
@[simp] theorem State.switchContext_reads (s : State) : s.switchContext.reads = s.reads := rfl
@[simp] theorem State.switchContext_draws (s : State) : s.switchContext.draws = s.draws := rfl
@[simp] theorem State.switchContext_gen (s : State) : s.switchContext.gen = s.gen := rfl

/-! `State.fetchByte` -/

@[simp] theorem State.fetchByte_params (s : State) : s.fetchByte.params = s.params := rfl
@[simp] theorem State.fetchByte_seq (s : State) : s.fetchByte.seq = s.seq := rfl
@[simp] theorem State.fetchByte_done (s : State) : s.fetchByte.done = s.done := rfl
@[simp] theorem State.fetchByte_tableValid (s : State) : s.fetchByte.tableValid = s.tableValid := rfl
@[simp] theorem State.fetchByte_overread (s : State) : s.fetchByte.overread = s.overread := rfl
@[simp] theorem State.fetchByte_underread (s : State) : s.fetchByte.underread = s.underread := rfl
@[simp] theorem State.fetchByte_dropped (s : State) : s.fetchByte.dropped = s.dropped := rfl
@[simp] theorem State.fetchByte_err (s : State) : s.fetchByte.err = s.err := rfl
@[simp] theorem State.fetchByte_inLen (s : State) : s.fetchByte.inLen = s.inLen := rfl
@[simp] theorem State.fetchByte_outCount (s : State) : s.fetchByte.outCount = s.outCount := rfl
@[simp] theorem State.fetchByte_outLen (s : State) : s.fetchByte.outLen = s.outLen := rfl
@[simp] theorem State.fetchByte_consumed (s : State) : s.fetchByte.consumed = s.consumed := rfl
@[simp] theorem State.fetchByte_taddrCtx (s : State) : s.fetchByte.taddrCtx = s.taddrCtx := rfl
@[simp] theorem State.fetchByte_taddrNode (s : State) : s.fetchByte.taddrNode = s.taddrNode := rfl
@[simp] theorem State.fetchByte_inLenL (s : State) : s.fetchByte.inLenL = s.inLenL := rfl
@[simp] theorem State.fetchByte_dp (s : State) : s.fetchByte.dp = { s.dp with byte := s.fetch s.dp.off.toNat, off := s.dp.off + 1 } := rfl
@[simp] theorem State.fetchByte_child (s : State) : s.fetchByte.child = s.child := rfl
@[simp] theorem State.fetchByte_unbuilt (s : State) : s.fetchByte.unbuilt = s.unbuilt := rfl
@[simp] theorem State.fetchByte_root (s : State) : s.fetchByte.root = s.root := rfl
@[simp] theorem State.fetchByte_scratch (s : State) : s.fetchByte.scratch = s.scratch := rfl
@[simp] theorem State.fetchByte_mem (s : State) : s.fetchByte.mem = s.mem := rfl
@[simp] theorem State.fetchByte_raced (s : State) : s.fetchByte.raced = s.raced := rfl
@[simp] theorem State.fetchByte_faults (s : State) : s.fetchByte.faults = s.faults := rfl
@[simp] theorem State.fetchByte_agenda (s : State) : s.fetchByte.agenda = s.agenda := rfl
@[simp] theorem State.fetchByte_reads (s : State) : s.fetchByte.reads = s.reads := rfl
@[simp] theorem State.fetchByte_draws (s : State) : s.fetchByte.draws = s.draws + 1 := rfl
@[simp] theorem State.fetchByte_gen (s : State) : s.fetchByte.gen = s.gen := rfl

/-! `State.emitLeaf` -/

@[simp] theorem State.emitLeaf_params (s : State) : s.emitLeaf.params = s.params := rfl
@[simp] theorem State.emitLeaf_seq (s : State) : s.emitLeaf.seq = s.seq := rfl
@[simp] theorem State.emitLeaf_done (s : State) : s.emitLeaf.done = s.done := rfl
@[simp] theorem State.emitLeaf_tableValid (s : State) : s.emitLeaf.tableValid = s.tableValid := rfl
@[simp] theorem State.emitLeaf_overread (s : State) : s.emitLeaf.overread = s.overread := rfl
@[simp] theorem State.emitLeaf_underread (s : State) : s.emitLeaf.underread = s.underread := rfl
@[simp] theorem State.emitLeaf_dropped (s : State) : s.emitLeaf.dropped = s.dropped := rfl
@[simp] theorem State.emitLeaf_err (s : State) : s.emitLeaf.err = s.err := rfl
@[simp] theorem State.emitLeaf_inLen (s : State) : s.emitLeaf.inLen = s.inLen := rfl
@[simp] theorem State.emitLeaf_outCount (s : State) : s.emitLeaf.outCount = s.outCount := rfl
@[simp] theorem State.emitLeaf_outLen (s : State) : s.emitLeaf.outLen = s.outLen := rfl
@[simp] theorem State.emitLeaf_consumed (s : State) : s.emitLeaf.consumed = s.consumed := rfl
@[simp] theorem State.emitLeaf_taddrCtx (s : State) : s.emitLeaf.taddrCtx = s.taddrCtx := rfl
@[simp] theorem State.emitLeaf_taddrNode (s : State) : s.emitLeaf.taddrNode = s.taddrNode := rfl
@[simp] theorem State.emitLeaf_inLenL (s : State) : s.emitLeaf.inLenL = s.inLenL := rfl
@[simp] theorem State.emitLeaf_dp (s : State) : s.emitLeaf.dp = { s.dp with e := s.dp.e + 1, rem := s.dp.rem - 1 } := rfl
@[simp] theorem State.emitLeaf_child (s : State) : s.emitLeaf.child = s.child := rfl
@[simp] theorem State.emitLeaf_unbuilt (s : State) : s.emitLeaf.unbuilt = s.unbuilt := rfl
@[simp] theorem State.emitLeaf_root (s : State) : s.emitLeaf.root = s.root := rfl
@[simp] theorem State.emitLeaf_scratch (s : State) : s.emitLeaf.scratch = s.scratch := rfl
@[simp] theorem State.emitLeaf_raced (s : State) : s.emitLeaf.raced = s.raced := rfl
@[simp] theorem State.emitLeaf_faults (s : State) : s.emitLeaf.faults = s.faults := rfl
@[simp] theorem State.emitLeaf_agenda (s : State) : s.emitLeaf.agenda = s.agenda := rfl
@[simp] theorem State.emitLeaf_reads (s : State) : s.emitLeaf.reads = s.reads := rfl
@[simp] theorem State.emitLeaf_draws (s : State) : s.emitLeaf.draws = s.draws + 1 := rfl
@[simp] theorem State.emitLeaf_gen (s : State) : s.emitLeaf.gen = s.gen := rfl

/-! `State.walkStart` -/

@[simp] theorem State.walkStart_params (s : State) (count : Word) : (s.walkStart count).params = s.params := rfl
@[simp] theorem State.walkStart_seq (s : State) (count : Word) : (s.walkStart count).seq = .decode := rfl
@[simp] theorem State.walkStart_done (s : State) (count : Word) : (s.walkStart count).done = s.done := rfl
@[simp] theorem State.walkStart_tableValid (s : State) (count : Word) : (s.walkStart count).tableValid = s.tableValid := rfl
@[simp] theorem State.walkStart_overread (s : State) (count : Word) : (s.walkStart count).overread = s.overread := rfl
@[simp] theorem State.walkStart_underread (s : State) (count : Word) : (s.walkStart count).underread = s.underread := rfl
@[simp] theorem State.walkStart_dropped (s : State) (count : Word) : (s.walkStart count).dropped = s.dropped := rfl
@[simp] theorem State.walkStart_err (s : State) (count : Word) : (s.walkStart count).err = s.err := rfl
@[simp] theorem State.walkStart_inLen (s : State) (count : Word) : (s.walkStart count).inLen = s.inLen := rfl
@[simp] theorem State.walkStart_outCount (s : State) (count : Word) : (s.walkStart count).outCount = s.outCount := rfl
@[simp] theorem State.walkStart_outLen (s : State) (count : Word) : (s.walkStart count).outLen = s.outLen := rfl
@[simp] theorem State.walkStart_consumed (s : State) (count : Word) : (s.walkStart count).consumed = s.consumed := rfl
@[simp] theorem State.walkStart_taddrCtx (s : State) (count : Word) : (s.walkStart count).taddrCtx = s.taddrCtx := rfl
@[simp] theorem State.walkStart_taddrNode (s : State) (count : Word) : (s.walkStart count).taddrNode = s.taddrNode := rfl
@[simp] theorem State.walkStart_inLenL (s : State) (count : Word) : (s.walkStart count).inLenL = s.inLenL := rfl
@[simp] theorem State.walkStart_dp (s : State) (count : Word) : (s.walkStart count).dp = { s.dp with off := 4, rem := count, e := 0, ctx := 0, node := s.rootOf 0, slot := 0 } := rfl
@[simp] theorem State.walkStart_child (s : State) (count : Word) : (s.walkStart count).child = s.child := rfl
@[simp] theorem State.walkStart_unbuilt (s : State) (count : Word) : (s.walkStart count).unbuilt = s.unbuilt := rfl
@[simp] theorem State.walkStart_root (s : State) (count : Word) : (s.walkStart count).root = s.root := rfl
@[simp] theorem State.walkStart_scratch (s : State) (count : Word) : (s.walkStart count).scratch = s.scratch := rfl
@[simp] theorem State.walkStart_mem (s : State) (count : Word) : (s.walkStart count).mem = s.mem := rfl
@[simp] theorem State.walkStart_raced (s : State) (count : Word) : (s.walkStart count).raced = s.raced := rfl
@[simp] theorem State.walkStart_faults (s : State) (count : Word) : (s.walkStart count).faults = s.faults := rfl
@[simp] theorem State.walkStart_agenda (s : State) (count : Word) : (s.walkStart count).agenda = s.agenda := rfl
@[simp] theorem State.walkStart_reads (s : State) (count : Word) : (s.walkStart count).reads = s.reads := rfl
@[simp] theorem State.walkStart_draws (s : State) (count : Word) : (s.walkStart count).draws = s.draws := rfl
@[simp] theorem State.walkStart_gen (s : State) (count : Word) : (s.walkStart count).gen = s.gen := rfl

/-! `State.storeContext` -/

@[simp] theorem State.storeContext_params (s : State) (c : Byte) : (s.storeContext c).params = s.params := rfl
@[simp] theorem State.storeContext_seq (s : State) (c : Byte) : (s.storeContext c).seq = s.seq := rfl
@[simp] theorem State.storeContext_done (s : State) (c : Byte) : (s.storeContext c).done = s.done := rfl
@[simp] theorem State.storeContext_tableValid (s : State) (c : Byte) : (s.storeContext c).tableValid = s.tableValid := rfl
@[simp] theorem State.storeContext_overread (s : State) (c : Byte) : (s.storeContext c).overread = s.overread := rfl
@[simp] theorem State.storeContext_underread (s : State) (c : Byte) : (s.storeContext c).underread = s.underread := rfl
@[simp] theorem State.storeContext_dropped (s : State) (c : Byte) : (s.storeContext c).dropped = s.dropped := rfl
@[simp] theorem State.storeContext_err (s : State) (c : Byte) : (s.storeContext c).err = s.err := rfl
@[simp] theorem State.storeContext_inLen (s : State) (c : Byte) : (s.storeContext c).inLen = s.inLen := rfl
@[simp] theorem State.storeContext_outCount (s : State) (c : Byte) : (s.storeContext c).outCount = s.outCount := rfl
@[simp] theorem State.storeContext_outLen (s : State) (c : Byte) : (s.storeContext c).outLen = s.outLen := rfl
@[simp] theorem State.storeContext_consumed (s : State) (c : Byte) : (s.storeContext c).consumed = s.consumed := rfl
@[simp] theorem State.storeContext_taddrCtx (s : State) (c : Byte) : (s.storeContext c).taddrCtx = s.taddrCtx := rfl
@[simp] theorem State.storeContext_taddrNode (s : State) (c : Byte) : (s.storeContext c).taddrNode = s.taddrNode := rfl
@[simp] theorem State.storeContext_inLenL (s : State) (c : Byte) : (s.storeContext c).inLenL = s.inLenL := rfl
@[simp] theorem State.storeContext_dp (s : State) (c : Byte) : (s.storeContext c).dp = s.dp := rfl
@[simp] theorem State.storeContext_unbuilt (s : State) (c : Byte) : (s.storeContext c).unbuilt = s.unbuilt := rfl
@[simp] theorem State.storeContext_mem (s : State) (c : Byte) : (s.storeContext c).mem = s.mem := rfl
@[simp] theorem State.storeContext_raced (s : State) (c : Byte) : (s.storeContext c).raced = s.raced := rfl
@[simp] theorem State.storeContext_faults (s : State) (c : Byte) : (s.storeContext c).faults = s.faults := rfl
@[simp] theorem State.storeContext_agenda (s : State) (c : Byte) : (s.storeContext c).agenda = s.agenda := rfl
@[simp] theorem State.storeContext_reads (s : State) (c : Byte) : (s.storeContext c).reads = s.reads := rfl
@[simp] theorem State.storeContext_draws (s : State) (c : Byte) : (s.storeContext c).draws = s.draws + 1 := rfl
@[simp] theorem State.storeContext_gen (s : State) (c : Byte) : (s.storeContext c).gen = s.gen := rfl

/-! `State.platformReset` -/

@[simp] theorem State.platformReset_params (s : State) : s.platformReset.params = s.params := rfl
@[simp] theorem State.platformReset_faults (s : State) : s.platformReset.faults = s.faults := rfl
@[simp] theorem State.platformReset_agenda (s : State) : s.platformReset.agenda = s.agenda := rfl
@[simp] theorem State.platformReset_reads (s : State) : s.platformReset.reads = s.reads := rfl

end Sys2Proof.Machine
end

