-- ==== Sys2Proof/Laws/Word.lean ====
section
/-! SUPPORT. Little-endian words: the bits of a word from its bytes, and that a word and its four bytes determine each
other. -/

namespace Sys2Proof

/-- Bit `k` of a word is bit `k % 8` of its byte `k / 8`. -/
theorem leWord_getLsbD (bs : List Byte) (k : Nat) (hk : k < 32) :
    (leWord bs).getLsbD k = (bs[k / 8]?.getD 0).getLsbD (k % 8) := by
  induction bs generalizing k with
  | nil => simp [leWord]
  | cons b bs ih =>
    simp only [leWord, BitVec.getLsbD_or, BitVec.getLsbD_setWidth, BitVec.getLsbD_shiftLeft, hk, decide_true,
      Bool.true_and]
    by_cases h : k < 8
    · simp [h, Nat.div_eq_of_lt h, Nat.mod_eq_of_lt h]
    · rw [ih (k - 8) (by omega), BitVec.getLsbD_of_ge b k (by omega),
        show k / 8 = (k - 8) / 8 + 1 by omega, show k % 8 = (k - 8) % 8 by omega]
      simp [h]

/-- The byte `k` of a word's bytes. -/
theorem leBytes_getElem? (n : Nat) (w : Word) (k : Nat) (h : k < n) :
    (leBytes n w)[k]? = some ((w >>> (8 * k)).setWidth 8) := by
  induction n generalizing w k with
  | zero => omega
  | succ n ih =>
    cases k with
    | zero => simp [leBytes]
    | succ k =>
      simp only [leBytes, List.getElem?_cons_succ]
      rw [ih _ _ (by omega), ← BitVec.shiftRight_add, show 8 + 8 * k = 8 * (k + 1) by omega]

@[simp] theorem leBytes_length (n : Nat) (w : Word) : (leBytes n w).length = n := by
  induction n generalizing w with
  | zero => rfl
  | succ n ih => simp [leBytes, ih]

/-- A word is the word of its four bytes. -/
@[simp] theorem leWord_leBytes (w : Word) : leWord (leBytes 4 w) = w := by
  apply BitVec.eq_of_getLsbD_eq
  intro k hk
  rw [leWord_getLsbD _ _ hk, leBytes_getElem? _ _ _ (by omega)]
  simp [Nat.mod_lt]
  congr 1
  omega

/-- Four bytes are the bytes of their word. -/
theorem leBytes_leWord (b0 b1 b2 b3 : Byte) : leBytes 4 (leWord [b0, b1, b2, b3]) = [b0, b1, b2, b3] := by
  apply List.ext_getElem?
  intro i
  by_cases hi : i < 4
  · rw [leBytes_getElem? _ _ _ hi]
    have key : ∀ b : Byte, [b0, b1, b2, b3][i]? = some b →
        some ((leWord [b0, b1, b2, b3] >>> (8 * i)).setWidth 8) = some b := by
      intro b hb
      congr 1
      apply BitVec.eq_of_getLsbD_eq
      intro j hj
      rw [BitVec.getLsbD_setWidth, BitVec.getLsbD_ushiftRight, leWord_getLsbD _ _ (by omega),
        show (8 * i + j) / 8 = i by omega, show (8 * i + j) % 8 = j by omega, hb]
      simp [hj]
    rcases (by omega : i = 0 ∨ i = 1 ∨ i = 2 ∨ i = 3) with rfl | rfl | rfl | rfl <;> exact key _ rfl
  · rw [List.getElem?_eq_none (by simp; omega), List.getElem?_eq_none (by simp; omega)]

end Sys2Proof
end

