-- ==== Sys2Proof/Laws/Ops.lean ====
section
/-! SUPPORT. What each shared operation does: byte reads and writes, the operands of the frequency image, the fault set,
the host's reads and writes, the submission of a command and the slots of a walk. -/

namespace Sys2Proof.Machine

/-! Byte reads and writes -/

/-- What a byte reads as depends on memory and the reset count alone. -/
theorem State.readByte_congr {s t : State} (hm : t.mem = s.mem) (hg : t.gen = s.gen) (a : Nat) :
    t.readByte a = s.readByte a := by simp only [State.readByte, hm, hg]

@[simp] theorem State.readByte_writeByte_self (s : State) (a : Nat) (v : Byte) : (s.writeByte a v).readByte a = v := by
  simp [State.readByte]

theorem State.readByte_writeByte_ne (s : State) {a b : Nat} (v : Byte) (h : b ≠ a) :
    (s.writeByte a v).readByte b = s.readByte b := by
  simp [State.readByte, Memory.find_put_ne _ _ h]

/-- Storing bytes changes memory alone. -/
theorem State.writeBytes_eq (s : State) (a : Nat) (bs : List Byte) :
    s.writeBytes a bs = { s with mem := (s.writeBytes a bs).mem } := by
  induction bs generalizing s a with
  | nil => rfl
  | cons b bs ih =>
    rw [State.writeBytes, ih]
    rfl

/-- Storing bytes leaves every byte outside them alone. -/
theorem State.readByte_writeBytes_outside (s : State) (a b : Nat) (bs : List Byte)
    (h : b < a ∨ a + bs.length ≤ b) : (s.writeBytes a bs).readByte b = s.readByte b := by
  induction bs generalizing s a with
  | nil => rfl
  | cons v bs ih =>
    simp only [List.length_cons] at h
    rw [State.writeBytes, ih _ _ (by omega), State.readByte_writeByte_ne _ _ (by omega)]

/-- Storing bytes stores each of them. -/
theorem State.readByte_writeBytes_inside (s : State) (a : Nat) (bs : List Byte) (k : Nat) (h : k < bs.length) :
    (s.writeBytes a bs).readByte (a + k) = bs[k] := by
  induction bs generalizing s a k with
  | nil => simp at h
  | cons v bs ih =>
    rw [State.writeBytes]
    cases k with
    | zero =>
      rw [State.readByte_writeBytes_outside _ _ _ _ (by omega)]
      simp
    | succ k =>
      have := ih (s.writeByte a v) (a + 1) k (by simpa using h)
      rw [show a + (k + 1) = a + 1 + k by omega, this]
      simp

/-- Storing bytes keeps the canonical form of memory. -/
theorem State.writeBytes_wf (s : State) (a : Nat) (bs : List Byte) (h : s.mem.wf) : (s.writeBytes a bs).mem.wf := by
  induction bs generalizing s a with
  | nil => exact h
  | cons v bs ih => exact ih _ _ (Memory.wf_put a v h)

/-- A cell of memory after storing bytes is old or one of the stored ones. -/
theorem State.mem_writeBytes {s : State} {a : Nat} {bs : List Byte} {c : Host.Cell}
    (h : c ∈ (s.writeBytes a bs).mem) : c ∈ s.mem ∨ (a ≤ c.1 ∧ c.1 < a + bs.length) := by
  induction bs generalizing s a with
  | nil => exact .inl h
  | cons v bs ih =>
    simp only [List.length_cons]
    rcases ih h with h | h
    · rcases Memory.mem_put h with rfl | h
      · exact .inr ⟨le_refl _, by show a < _; omega⟩
      · exact .inl h
    · exact .inr (by omega)

/-! Operands -/

/-- A row of the frequency image, cut or not, holds the counts of 30_encoding.md R93. -/
theorem State.frequencyRow_eq (s : State) (c : Nat) :
    s.frequencyRow c = (List.range 256).map fun j => s.frequency c j := by
  unfold State.frequencyRow
  refine List.map_congr_left fun j hj => ?_
  have hj : j < 256 := List.mem_range.mp hj
  simp only [State.frequency, State.readIn, State.readByte]
  rw [Memory.find_window _ (by simp only [inAddr]; omega) (by simp only [inAddr]; omega)]

@[simp] theorem State.frequencyRow_length (s : State) (c : Nat) : (s.frequencyRow c).length = 256 := by
  simp [State.frequencyRow_eq]

/-- A child depends on the table alone: on CHILD and on the draw of its unbuilt slots. -/
theorem State.childOf_congr {s t : State} (hc : t.child = s.child) (hu : t.unbuilt = s.unbuilt) (c : Byte) (n : Node)
    (b : Bool) : t.childOf c n b = s.childOf c n b := by simp only [State.childOf, State.builtPair, hc, hu]

/-- With no byte raced, a row is the row's bytes of IN. -/
theorem State.frequencyRow_of_raced_nil {s : State} (h : s.raced = []) (c : Nat) :
    s.frequencyRow c = (List.range 256).map fun j => s.readByte (inAddr (256 * c + j)) := by
  rw [State.frequencyRow_eq]
  exact List.map_congr_left fun j _ => by simp [State.frequency, State.readIn, h]

/-- The header's count depends on memory and the reset count alone. -/
theorem State.headerCount_congr {s t : State} (hm : t.mem = s.mem) (hg : t.gen = s.gen) :
    t.headerCount = s.headerCount := by
  unfold State.headerCount State.readLE
  simp only [State.readByte_congr hm hg]

/-! The fault set -/

/-- Recording a fault changes the fault set alone. -/
theorem State.recordFault_eq (s : State) (f : Fault) :
    s.recordFault f = { s with faults := (s.recordFault f).faults } := by
  unfold State.recordFault; split <;> rfl

theorem State.mem_recordFault_self (s : State) (f : Fault) : f ∈ (s.recordFault f).faults := by
  unfold State.recordFault; split <;> simp_all

theorem State.mem_recordFault_of_mem {s : State} {f g : Fault} (h : g ∈ s.faults) : g ∈ (s.recordFault f).faults := by
  unfold State.recordFault; split <;> simp_all

theorem State.recordFault_nodup {s : State} (f : Fault) (h : s.faults.Nodup) : (s.recordFault f).faults.Nodup := by
  unfold State.recordFault; split
  · exact h
  · rename_i hf; exact List.nodup_cons.mpr ⟨hf, h⟩

/-! The host's bus -/

/-- A host read changes what the host received, the draw counter and the fault set, and nothing else. -/
theorem State.hostRead_eq (s : State) (a : Offset) (n : Nat) :
    s.hostRead a n = { s with reads := (s.hostRead a n).reads, draws := (s.hostRead a n).draws,
                              faults := (s.hostRead a n).faults } := by
  unfold State.hostRead
  split
  all_goals first
    | rfl
    | (rw [State.recordFault_eq])

theorem State.mem_faults_hostRead {s : State} {f : Fault} (a : Offset) (n : Nat) (h : f ∈ s.faults) :
    f ∈ (s.hostRead a n).faults := by
  unfold State.hostRead
  split
  all_goals first
    | exact h
    | exact State.mem_recordFault_of_mem h

theorem State.hostRead_faults_nodup {s : State} (a : Offset) (n : Nat) (h : s.faults.Nodup) :
    (s.hostRead a n).faults.Nodup := by
  unfold State.hostRead
  split
  all_goals first
    | exact h
    | exact State.recordFault_nodup _ h

/-- A host write to a buffer changes memory and, while BUSY = 1, the raced offsets and the fault set. -/
theorem State.writeBuffer_eq (s : State) (a : Offset) (bs : List Byte) :
    s.writeBuffer a bs = { s with mem := (s.writeBytes a.toNat bs).mem, raced := (s.writeBuffer a bs).raced,
                                  faults := (s.writeBuffer a bs).faults } := by
  unfold State.writeBuffer
  split
  · rw [State.recordFault_eq, State.writeBytes_eq]
  · rw [State.writeBytes_eq]

/-- The four-byte access at offset 0 is admitted to the registers, whatever the parameters. -/
@[simp] theorem regionOf_cmd (p : Params) : regionOf p 0 4 = some .registers := by
  simp [regionOf, Config.regEnd]

/-- A host write of a word to CMD submits it. -/
theorem runEvent_submitEvent (w : Word) (s : State) : runEvent (submitEvent w) s = submitWord w s := by
  simp [runEvent, submitEvent, hostTxn, hostWrite, writeRegister]

/-! Commands -/

theorem State.busy_eq_false_iff (s : State) : s.busy = false ↔ s.seq = .idle := by
  simp [State.busy]

theorem State.busy_eq_true_iff (s : State) : s.busy = true ↔ s.seq ≠ .idle := by
  simp [State.busy]

/-- A submitted command is dropped while BUSY = 1. -/
theorem State.submit_of_busy {s : State} (h : s.busy = true) (act : State → State) : s.submit act = s.drop := by
  simp [State.submit, h]

/-- A submitted command is accepted while BUSY = 0. -/
theorem State.submit_of_idle {s : State} (h : s.busy = false) (act : State → State) : s.submit act = act s.accept := by
  simp [State.submit, h]

/-- Everything DECODE's acceptance checks can do, in their order (41_decode.md R141, R143, 60_exceptions.md R210). -/
theorem State.decodeChecks_cases (s : State) :
    (s.tableValid = false ∧ s.decodeChecks = s.raise .noTable) ∨
    (s.tableValid = true ∧ s.params.inSize < s.inLenL.toNat ∧ s.decodeChecks = s.raise .inLenRange) ∨
    (s.tableValid = true ∧ s.inLenL.toNat ≤ s.params.inSize ∧ s.inLenL.toNat < 4 ∧
      s.decodeChecks = s.raise .shortBlock) ∨
    (s.tableValid = true ∧ s.inLenL.toNat ≤ s.params.inSize ∧ 4 ≤ s.inLenL.toNat ∧
      s.params.outSize < s.headerCount.toNat ∧
      s.decodeChecks = State.raise { s with outCount := s.headerCount, consumed := 4 } .outRange) ∨
    (s.tableValid = true ∧ s.inLenL.toNat ≤ s.params.inSize ∧ 4 ≤ s.inLenL.toNat ∧
      s.headerCount.toNat ≤ s.params.outSize ∧
      s.decodeChecks = State.walkStart { s with outCount := s.headerCount } s.headerCount) := by
  unfold State.decodeChecks
  by_cases h1 : s.tableValid = false
  · exact .inl ⟨h1, if_pos h1⟩
  · rw [if_neg h1]
    replace h1 : s.tableValid = true := by simpa using h1
    by_cases h2 : s.inLenL.toNat > s.params.inSize
    · exact .inr (.inl ⟨h1, h2, if_pos h2⟩)
    · rw [if_neg h2]
      replace h2 := Nat.le_of_not_lt h2
      by_cases h3 : s.inLenL.toNat < Config.hdr
      · exact .inr (.inr (.inl ⟨h1, h2, h3, if_pos h3⟩))
      · rw [if_neg h3]
        replace h3 := Nat.le_of_not_lt h3
        unfold State.decodeHeader
        by_cases h4 : s.headerCount.toNat > s.params.outSize
        · exact .inr (.inr (.inr (.inl ⟨h1, h2, h3, h4, if_pos h4⟩)))
        · exact .inr (.inr (.inr (.inr ⟨h1, h2, h3, Nat.le_of_not_lt h4, if_neg h4⟩)))

/-! The walk -/

/-- Everything a bit slot can do: use its bit at an internal node; or emit a leaf and then complete, raise
DEGENERATE_ROOT, or use its bit in the new context. -/
theorem State.slotStep_cases (s : State) :
    (256 ≤ s.dp.node.toNat ∧ s.slotStep = s.bitStep) ∨
    (s.dp.node.toNat < 256 ∧ s.dp.rem - 1 = 0 ∧ s.slotStep = s.emitLeaf.walkFinish) ∨
    (s.dp.node.toNat < 256 ∧ s.dp.rem - 1 ≠ 0 ∧ (s.rootOf (s.dp.node.setWidth 8)).toNat < 256 ∧
      s.slotStep = s.emitLeaf.switchContext.walkError .degenerateRoot) ∨
    (s.dp.node.toNat < 256 ∧ s.dp.rem - 1 ≠ 0 ∧ 256 ≤ (s.rootOf (s.dp.node.setWidth 8)).toNat ∧
      s.slotStep = s.emitLeaf.switchContext.bitStep) := by
  unfold State.slotStep
  by_cases h1 : s.dp.node.toNat < Config.nsym
  · rw [if_pos h1]
    by_cases h2 : s.dp.rem - 1 = 0
    · exact .inr (.inl ⟨h1, h2, if_pos h2⟩)
    · by_cases h3 : (s.rootOf (s.dp.node.setWidth 8)).toNat < Config.nsym
      · exact .inr (.inr (.inl ⟨h1, h2, h3, (if_neg h2).trans (if_pos h3)⟩))
      · exact .inr (.inr (.inr ⟨h1, h2, Nat.le_of_not_lt h3, (if_neg h2).trans (if_neg h3)⟩))
  · rw [if_neg h1]
    exact .inl ⟨Nat.le_of_not_lt h1, rfl⟩

/-- Everything a block step of DECODE can do. -/
theorem State.decodeStep_cases (s : State) :
    (s.dp.slot ≠ 0 ∧ s.decodeStep = s.slotStep) ∨
    (s.dp.slot = 0 ∧ s.dp.rem = 0 ∧ s.decodeStep = s.walkFinish) ∨
    (s.dp.slot = 0 ∧ s.dp.rem ≠ 0 ∧ s.params.inSize ≤ s.dp.off.toNat ∧
      s.decodeStep = s.walkError .inputExhausted) ∨
    (s.dp.slot = 0 ∧ s.dp.rem ≠ 0 ∧ s.dp.off.toNat < s.params.inSize ∧ s.decodeStep = s.fetchByte.slotStep) := by
  unfold State.decodeStep
  by_cases h1 : s.dp.slot = 0
  · rw [if_pos h1]
    by_cases h2 : s.dp.rem = 0
    · exact .inr (.inl ⟨h1, h2, if_pos h2⟩)
    · rw [if_neg h2]
      by_cases h3 : s.params.inSize ≤ s.dp.off.toNat
      · exact .inr (.inr (.inl ⟨h1, h2, h3, if_pos h3⟩))
      · exact .inr (.inr (.inr ⟨h1, h2, Nat.lt_of_not_le h3, if_neg h3⟩))
  · exact .inl ⟨h1, if_neg h1⟩

end Sys2Proof.Machine
end

