-- ==== Sys2Proof/Laws/Build.lean ====
section
/-! SUPPORT. The build scratch's reads and writes, Pick as a search over node numbers, and one turn of the merge loop. -/

namespace Sys2Proof.Machine

/-! The scratch -/

theorem Scratch.count_eq (sc : Scratch) {i : Nat} (h : i < 511) : sc.count i = sc.cnt[i] := by
  simp [Scratch.count, h]

theorem Scratch.isUsed_eq (sc : Scratch) {i : Nat} (h : i < 511) : sc.isUsed i = sc.used[i] := by
  simp [Scratch.isUsed, h]

@[simp] theorem Scratch.count_mark (sc : Scratch) (a i : Nat) : (sc.mark a).count i = sc.count i := rfl

@[simp] theorem Scratch.isUsed_setCount (sc : Scratch) (n : Nat) (v : Half) (i : Nat) :
    (sc.setCount n v).isUsed i = sc.isUsed i := rfl

/-- Marking a node used marks it and no other. -/
theorem Scratch.isUsed_mark (sc : Scratch) (a : Nat) {i : Nat} (h : i < 511) :
    (sc.mark a).isUsed i = (sc.isUsed i || i == a) := by
  rw [Scratch.isUsed_eq _ h, Scratch.isUsed_eq _ h]
  by_cases hia : a = i
  · subst hia; simp [Scratch.mark]
  · have hne : (i == a) = false := by simp [Ne.symm hia]
    simp [Scratch.mark, hia, hne]

/-- Setting a count sets it and no other. -/
theorem Scratch.count_setCount (sc : Scratch) {n : Nat} (v : Half) {i : Nat} (hn : n < 511) :
    (sc.setCount n v).count i = if i = n then v else sc.count i := by
  by_cases hi : i < 511
  · rw [Scratch.count_eq _ hi, Scratch.count_eq _ hi]
    by_cases h : n = i
    · subst h; simp [Scratch.setCount]
    · simp [Scratch.setCount, h, Ne.symm h]
  · have hne : i ≠ n := by omega
    simp [Scratch.count, Scratch.setCount, hi, hne]

/-! Pick -/

/-- Pick(n) is the search over the node numbers 0..n-1 in increasing order (40_build.md R112). -/
theorem pickNode_eq_search (sc : Scratch) {n : Nat} (hn : n ≤ 511) :
    pickNode sc n =
      (((List.range n).map fun i => ((sc.count i, sc.isUsed i), i)).foldl pickTurn none).map (·.1) := by
  have h : ((sc.cnt.toList.zip sc.used.toList).take n).zipIdx =
      (List.range n).map fun i => ((sc.count i, sc.isUsed i), i) := by
    apply List.ext_getElem
    · simp; omega
    · intro i h1 h2
      have hi : i < n := by simpa using h2
      have hi' : i < 511 := by omega
      simp [Scratch.count_eq sc hi', Scratch.isUsed_eq sc hi']
  rw [pickNode, h]

/-! The merge loop -/

@[simp] theorem Growth.numNodes_link (g : Growth) (a b : Nat) : (g.link a b).numNodes = g.numNodes + 1 := by
  simp [Growth.numNodes, Growth.link]; omega

/-- Everything one turn of the merge loop can do (40_build.md R113). -/
theorem mergeLoop_cases (fuel : Nat) (g : Growth) :
    (g.numNodes = 511 ∧ mergeLoop (fuel + 1) g = g) ∨
    (g.numNodes ≠ 511 ∧ pickNode g.scratch g.numNodes = none ∧ mergeLoop (fuel + 1) g = g) ∨
    (∃ a, g.numNodes ≠ 511 ∧ pickNode g.scratch g.numNodes = some a ∧
      pickNode (g.scratch.mark a) g.numNodes = none ∧
      mergeLoop (fuel + 1) g = { g with scratch := g.scratch.mark a }) ∨
    (∃ a b, g.numNodes ≠ 511 ∧ pickNode g.scratch g.numNodes = some a ∧
      pickNode (g.scratch.mark a) g.numNodes = some b ∧
      mergeLoop (fuel + 1) g =
        mergeLoop fuel (Growth.link { g with scratch := (g.scratch.mark a).mark b } a b)) := by
  rw [mergeLoop]
  by_cases h : g.numNodes = Config.maxNodes
  · exact .inl ⟨h, if_pos h⟩
  · rw [if_neg h]
    cases ha : pickNode g.scratch g.numNodes with
    | none => exact .inr (.inl ⟨h, rfl, rfl⟩)
    | some a =>
      have hn : ({ g with scratch := g.scratch.mark a } : Growth).numNodes = g.numNodes := rfl
      simp only [hn]
      cases hb : pickNode (g.scratch.mark a) g.numNodes with
      | none => exact .inr (.inr (.inl ⟨a, h, rfl, hb, rfl⟩))
      | some b => exact .inr (.inr (.inr ⟨a, b, h, rfl, hb, rfl⟩))

end Sys2Proof.Machine
end

