-- ==== Sys2Proof/Laws/PerInstr.lean ====
section
/-! SUPPORT. What holds of every instruction as syntax, one lemma per constructor: its encoding's fields are well formed
and decode to it (30_encoding.md R90 to R92). -/

namespace Sys2Proof.Laws.Encoded

/-- The instruction is well formed, its word's fields are those it was encoded from, RSV = 0 and OP assigned, and the
word decodes to it. -/
def Statement (i : Instr) : Prop :=
  i.wellFormed = true ∧ cmdFields (encode i) = encodeFields i ∧ (encodeFields i).wellFormed = true ∧
    decodeWord (encode i) = .ok i

theorem build : Statement .build := ⟨rfl, by decide, by decide, by decide⟩

theorem decode : Statement .decode := ⟨rfl, by decide, by decide, by decide⟩

theorem release : Statement .release := ⟨rfl, by decide, by decide, by decide⟩

end Sys2Proof.Laws.Encoded
end

