-- ==== Sys2Proof/Laws/Step.lean ====
section
/-! SUPPORT. What a step can do, said once: the cases of a host transaction, of a submitted word, of a poll, of a block
step and of a step. -/

namespace Sys2Proof.Machine

/-! The host's transactions -/

/-- A four-byte access inside the register region is admitted to it. -/
theorem regionOf_registers (p : Params) {a : Nat} (h0 : a % 4 = 0) (h1 : a + 4 ≤ 0x100) : regionOf p a 4 = some .registers := by
  rw [regionOf, if_neg (by omega), if_pos h1, if_pos rfl]

/-- A 32-bit read of a register returns its value. -/
theorem State.hostRead_register (s : State) {a : Offset} (h0 : a.toNat % 4 = 0) (h1 : a.toNat + 4 ≤ 0x100) :
    s.hostRead a 4 = s.returnData a 4 (s.readRegister a.toNat) := by
  rw [State.hostRead, regionOf_registers _ h0 h1]

/-- An access admitted to a window lies inside it. -/
theorem regionOf_window {p : Params} {a n : Nat} (h : regionOf p a n = some .inBuf ∨ regionOf p a n = some .outBuf) :
    (Config.inBase ≤ a ∧ a + n ≤ Config.inBase + p.inSize) ∨
      (Config.outBase ≤ a ∧ a + n ≤ Config.outBase + p.outSize) := by
  unfold regionOf at h
  by_cases h1 : a % n ≠ 0
  · rw [if_pos h1] at h; simp at h
  · rw [if_neg h1] at h
    by_cases h2 : a + n ≤ Config.regEnd
    · rw [if_pos h2] at h
      by_cases h3 : n = 4
      · rw [if_pos h3] at h; simp at h
      · rw [if_neg h3] at h; simp at h
    · rw [if_neg h2] at h
      by_cases h3 : Config.inBase ≤ a ∧ a + n ≤ Config.inBase + p.inSize
      · exact .inl h3
      · rw [if_neg h3] at h
        by_cases h4 : Config.outBase ≤ a ∧ a + n ≤ Config.outBase + p.outSize
        · exact .inr h4
        · rw [if_neg h4] at h; simp at h

/-- Everything a host write can do. -/
theorem hostWrite_cases {a : Offset} {n : Nat} {v : Word} {s t : State} (h : hostWrite a n v s = .next t) :
    (a = 0x000 ∧ submitWord v s = .next t) ∨ t = { s with inLen := v } ∨ t = s.setTaddr v ∨ t = s ∨
      ((regionOf s.params a.toNat n = some .inBuf ∨ regionOf s.params a.toNat n = some .outBuf) ∧
        t = s.writeBuffer a (leBytes n v)) ∨
      t = s.recordFault (.busError a n) := by
  unfold hostWrite at h
  split at h
  · unfold writeRegister at h
    split at h
    · rename_i h0
      exact .inl ⟨BitVec.eq_of_toNat_eq h0, h⟩
    · split at h
      · cases h; exact .inr (.inl rfl)
      · split at h
        · cases h; exact .inr (.inr (.inl rfl))
        · cases h; exact .inr (.inr (.inr (.inl rfl)))
  · rename_i ha
    cases h; exact .inr (.inr (.inr (.inr (.inl ⟨.inl ha, rfl⟩))))
  · rename_i ha
    cases h; exact .inr (.inr (.inr (.inr (.inl ⟨.inr ha, rfl⟩))))
  · cases h; exact .inr (.inr (.inr (.inr (.inr rfl))))

/-- Everything a host transaction can do. A word reaches CMD by a 32-bit write to offset 0 alone. -/
theorem hostTxn_cases {x : HostTxn} {s t : State} (h : hostTxn x s = .next t) :
    (∃ a n, t = s.hostRead a n) ∨ (∃ w, x = .wr32 0x000 w ∧ submitWord w s = .next t) ∨
      (∃ v, t = { s with inLen := v }) ∨ (∃ v, t = s.setTaddr v) ∨ t = s ∨
      (∃ a n v, (regionOf s.params a.toNat n = some .inBuf ∨ regionOf s.params a.toNat n = some .outBuf) ∧
        t = s.writeBuffer a (leBytes n v)) ∨
      ∃ f, t = s.recordFault f := by
  have narrow : ∀ {a : Offset} {n : Nat} {v : Word}, n = 1 ∨ n = 2 → a = 0x000 → hostWrite a n v s = .next t →
      t = s.recordFault (.busError a n) := by
    rintro a n v (rfl | rfl) rfl h <;> simpa [hostWrite, regionOf, eq_comm] using h
  have wide : ∀ {a : Offset} {n : Nat} {v : Word}, hostWrite a n v s = .next t → (a = 0x000 → submitWord v s = .next t →
        (∃ w, x = .wr32 0x000 w ∧ submitWord w s = .next t) ∨ ∃ f, t = s.recordFault f) →
      (∃ a n, t = s.hostRead a n) ∨ (∃ w, x = .wr32 0x000 w ∧ submitWord w s = .next t) ∨
        (∃ v, t = { s with inLen := v }) ∨ (∃ v, t = s.setTaddr v) ∨ t = s ∨
        (∃ a n v, (regionOf s.params a.toNat n = some .inBuf ∨ regionOf s.params a.toNat n = some .outBuf) ∧
          t = s.writeBuffer a (leBytes n v)) ∨
        ∃ f, t = s.recordFault f := by
    intro a n v h hcmd
    rcases hostWrite_cases h with ⟨h0, h1⟩ | h | h | h | h | h
    · rcases hcmd h0 h1 with h | h
      · exact .inr (.inl h)
      · exact .inr (.inr (.inr (.inr (.inr (.inr h)))))
    · exact .inr (.inr (.inl ⟨_, h⟩))
    · exact .inr (.inr (.inr (.inl ⟨_, h⟩)))
    · exact .inr (.inr (.inr (.inr (.inl h))))
    · exact .inr (.inr (.inr (.inr (.inr (.inl ⟨_, _, _, h⟩)))))
    · exact .inr (.inr (.inr (.inr (.inr (.inr ⟨_, h⟩)))))
  cases x with
  | rd8 a => cases h; exact .inl ⟨_, _, rfl⟩
  | rd16 a => cases h; exact .inl ⟨_, _, rfl⟩
  | rd32 a => cases h; exact .inl ⟨_, _, rfl⟩
  | wr8 a v => exact wide h fun h0 _ => .inr ⟨_, narrow (.inl rfl) h0 h⟩
  | wr16 a v => exact wide h fun h0 _ => .inr ⟨_, narrow (.inr rfl) h0 h⟩
  | wr32 a v => exact wide h fun h0 h1 => .inl ⟨v, by rw [h0], h1⟩

/-- Everything a word written to CMD can do (42_control.md R172, R173). -/
theorem submitWord_cases {w : Word} {s t : State} (h : submitWord w s = .next t) :
    (s.busy = true ∧ t = s.drop) ∨
      (s.busy = false ∧ ((decodeWord w = .ok .build ∧ t = s.accept.buildAccept) ∨
        (decodeWord w = .ok .decode ∧ t = s.accept.decodeAccept) ∨
        (decodeWord w = .ok .release ∧ t = s.accept.releaseAccept) ∨
        ((∃ e, decodeWord w = .error e) ∧ t = s.accept.illegalAccept))) := by
  have key : ∀ act : State → State, (.next (s.submit act) : Host.Outcome State Fault Refusal) = .next t →
      (s.busy = true ∧ t = s.drop) ∨ (s.busy = false ∧ t = act s.accept) := by
    intro act h
    cases hb : s.busy with
    | true => rw [State.submit_of_busy hb] at h; cases h; exact .inl ⟨rfl, rfl⟩
    | false => rw [State.submit_of_idle hb] at h; cases h; exact .inr ⟨rfl, rfl⟩
  unfold submitWord at h
  cases hd : decodeWord w with
  | error e =>
    rw [hd] at h
    rcases key _ h with h | ⟨h0, h1⟩
    · exact .inl h
    · exact .inr ⟨h0, .inr (.inr (.inr ⟨⟨e, rfl⟩, h1⟩))⟩
  | ok i =>
    rw [hd] at h
    cases i with
    | build =>
      rcases key _ h with h | ⟨h0, h1⟩
      · exact .inl h
      · exact .inr ⟨h0, .inl ⟨rfl, h1⟩⟩
    | decode =>
      rcases key _ h with h | ⟨h0, h1⟩
      · exact .inl h
      · exact .inr ⟨h0, .inr (.inl ⟨rfl, h1⟩)⟩
    | release =>
      rcases key _ h with h | ⟨h0, h1⟩
      · exact .inl h
      · exact .inr ⟨h0, .inr (.inr (.inl ⟨rfl, h1⟩))⟩

/-- A poll reads STATUS. -/
theorem State.poll_eq (s : State) :
    s.poll = if s.busy then { s.returnData 0x004 4 s.statusWord with agenda := .block :: .wait :: s.agenda }
      else s.returnData 0x004 4 s.statusWord := by
  unfold State.poll
  rw [State.hostRead_register s (by decide) (by decide)]
  rfl

/-! The steps -/

theorem step_nil {s : State} (h : s.agenda = []) : step s = .next s.blockStep := by
  rw [step, h]

theorem step_cons {s : State} {e : Event} {rest : List Event} (h : s.agenda = e :: rest) :
    step s = runEvent e { s with agenda := rest } := by
  rw [step, h]

/-- Everything a block step can do. -/
theorem State.blockStep_cases (s : State) :
    (s.seq = .idle ∧ s.blockStep = s) ∨
      (∃ c, s.seq = .build c ∧ c ≠ 255 ∧ s.blockStep = { s.storeContext c with seq := .build (c + 1) }) ∨
      (s.seq = .build 255 ∧ s.blockStep = (s.storeContext 255).buildComplete) ∨
      (s.seq = .decode ∧ s.blockStep = s.decodeStep) := by
  cases h : s.seq with
  | idle => exact .inl ⟨rfl, by rw [State.blockStep, h]⟩
  | decode => exact .inr (.inr (.inr ⟨rfl, by rw [State.blockStep, h]⟩))
  | build c =>
    by_cases hc : c = 255
    · subst hc
      refine .inr (.inr (.inl ⟨rfl, ?_⟩))
      simp only [State.blockStep, h]
      rw [State.buildStep, if_pos rfl]
    · refine .inr (.inl ⟨c, rfl, hc, ?_⟩)
      simp only [State.blockStep, h]
      rw [State.buildStep, if_neg hc]

/-- Everything a step can do: a block step, or the event at the head of the agenda. -/
theorem step_cases {s t : State} (h : step s = .next t) :
    (s.agenda = [] ∧ t = s.blockStep) ∨
      ∃ rest, (s.agenda = .block :: rest ∧ t = State.blockStep { s with agenda := rest }) ∨
        (s.agenda = .wait :: rest ∧ t = State.poll { s with agenda := rest }) ∨
        (s.agenda = .reset :: rest ∧ t = State.platformReset { s with agenda := rest }) ∨
        ∃ x, s.agenda = .host x :: rest ∧ hostTxn x { s with agenda := rest } = .next t := by
  cases ha : s.agenda with
  | nil => rw [step_nil ha] at h; cases h; exact .inl ⟨rfl, rfl⟩
  | cons e rest =>
    rw [step_cons ha] at h
    cases e with
    | host x => exact .inr ⟨rest, .inr (.inr (.inr ⟨x, rfl, h⟩))⟩
    | wait => cases h; exact .inr ⟨rest, .inr (.inl ⟨rfl, rfl⟩)⟩
    | block => cases h; exact .inr ⟨rest, .inl ⟨rfl, rfl⟩⟩
    | reset => cases h; exact .inr ⟨rest, .inr (.inr (.inl ⟨rfl, rfl⟩))⟩

end Sys2Proof.Machine
end

