-- ==== Sys2Proof/Laws/Run.lean ====
section
/-! SUPPORT. Runs of block steps: one step at either end, a run after a run, and that the machine with nothing left on its
agenda makes them. -/

namespace Sys2Proof.Machine

@[simp] theorem runBlock_zero (s : State) : runBlock 0 s = s := by rw [runBlock]

/-- A run's first step. -/
theorem runBlock_succ (n : Nat) (s : State) : runBlock (n + 1) s = runBlock n s.blockStep := by rw [runBlock]

/-- A run's last step. -/
theorem runBlock_succ_last (n : Nat) (s : State) : runBlock (n + 1) s = (runBlock n s).blockStep := by
  induction n generalizing s with
  | zero => rw [runBlock_succ, runBlock_zero, runBlock_zero]
  | succ n ih => rw [runBlock_succ, ih, runBlock_succ]

/-- A run after a run. -/
theorem runBlock_add (m n : Nat) (s : State) : runBlock (m + n) s = runBlock n (runBlock m s) := by
  induction m generalizing s with
  | zero => rw [Nat.zero_add, runBlock_zero]
  | succ m ih => rw [Nat.succ_add, runBlock_succ, ih, runBlock_succ]

/-- A block step takes nothing off the agenda and puts nothing on it. -/
@[simp] theorem State.blockStep_agenda (s : State) : s.blockStep.agenda = s.agenda := by
  have slot : ∀ u : State, u.slotStep.agenda = u.agenda := by
    intro u
    rcases u.slotStep_cases with ⟨_, h⟩ | ⟨_, _, h⟩ | ⟨_, _, _, h⟩ | ⟨_, _, _, h⟩ <;> simp [h]
  rcases s.blockStep_cases with ⟨_, h⟩ | ⟨c, _, _, h⟩ | ⟨_, h⟩ | ⟨_, h⟩
  · rw [h]
  · simp [h]
  · simp [h]
  · rw [h]
    rcases s.decodeStep_cases with ⟨_, h⟩ | ⟨_, _, h⟩ | ⟨_, _, _, h⟩ | ⟨_, _, _, h⟩ <;> simp [h, slot]

/-- With nothing on its agenda the machine makes block steps. -/
theorem run_of_agenda_nil (n : Nat) {s : State} (h : s.agenda = []) :
    Host.Core.run core n s = .next (runBlock n s) ∧ (runBlock n s).agenda = [] := by
  induction n generalizing s with
  | zero => rw [runBlock_zero]; exact ⟨rfl, h⟩
  | succ n ih =>
    have hs : core.step s = .next s.blockStep := step_nil h
    have ht := ih (s := s.blockStep) (by rw [State.blockStep_agenda, h])
    rw [runBlock_succ]
    refine ⟨?_, ht.2⟩
    rw [Host.Core.run.eq_2 core s n, hs]
    exact ht.1

end Sys2Proof.Machine
end

