-- ==== Sys2Proof/Tests/Slice0.lean ====
section
/-! SUPPORT. Tests: well-formedness, the words of the encoding, single steps with results taken from the vectors of
95_test_vectors.md, and for every obligation with hypotheses a state and operands that meet them. -/

namespace Sys2Proof.Machine

/-! ## Well-formedness: one ill-formed term for each check -/

theorem test_cmd32_ok : ({ op := 3, rsv := 0 } : Cmd32).wellFormed = true := by decide
theorem test_cmd32_reserved_bit : ({ op := 1, rsv := 1 } : Cmd32).wellFormed = false := by decide
theorem test_cmd32_unassigned_op : ({ op := 4, rsv := 0 } : Cmd32).wellFormed = false := by decide
theorem test_params_ok : Params.default.wellFormed = true := by decide
theorem test_params_base_unaligned : ({ Params.default with base := 0x200000 } : Params).wellFormed = false := by decide
theorem test_params_in_size_small : ({ Params.default with inSize := 65535 } : Params).wellFormed = false := by decide
theorem test_params_in_size_large : ({ Params.default with inSize := 1048577 } : Params).wellFormed = false := by decide
theorem test_params_out_size_zero : ({ Params.default with outSize := 0 } : Params).wellFormed = false := by decide
theorem test_params_out_size_large : ({ Params.default with outSize := 1048577 } : Params).wellFormed = false := by decide

/-! ## Decoding: the words of 30_encoding.md R91 bit by bit, RSV in bits 31:4 and OP in bits 3:0 (R90) -/

theorem test_decode_build_word : decodeWord 0b0000000000000000000000000000_0001#32 = .ok .build := by decide
theorem test_decode_decode_word : decodeWord 0b0000000000000000000000000000_0010#32 = .ok .decode := by decide
theorem test_decode_release_word : decodeWord 0b0000000000000000000000000000_0011#32 = .ok .release := by decide
theorem test_decode_rsv_set : decodeWord 0b0000000000000000000000000001_0001#32 = .error (.reservedBits 1) := by decide
theorem test_decode_bytes : decodeBytes [0x02, 0x00, 0x00, 0x00, 0x1A] = .ok (.decode, [0x1A]) := by decide
theorem test_decode_table_word : decodeTableWord 32 3 = some .release := by decide

/-! ## States to test on -/

/-- A state with the table T1 of the vectors: every row {0:1, 1:1, 2:2}. -/
def stateT1 : State :=
  { State.reset with tableValid := true, child := Vector.replicate 256 [(0, 1), (2, 256)],
                     root := Vector.replicate 256 257 }

/-- The cells that hold `bytes` in IN from offset 0 on. -/
def inCells (bytes : List Byte) : Memory := bytes.zipIdx.map fun p => (inAddr p.2, p.1)

/-- T1 with a block in IN and its length in IN_LEN. -/
def stateBlock (bytes : List Byte) (len : Word) : State := { stateT1 with mem := inCells bytes, inLen := len }

/-- A walk of DV1's block (byte 0x1A) under T1 in context 0, before slot `slot` at node `node` with `rem` bytes owed. -/
def stateWalk (slot : BitVec 3) (node : Node) (rem : Word) : State :=
  { stateBlock [4, 0, 0, 0, 0x1A] 5 with
      seq := .decode, inLenL := 5, outCount := 4,
      dp := { node := node, ctx := 0, rem := rem, byte := 0x1A, slot := slot, off := 5, e := 0 } }

/-- The reset state with events to come. -/
def stateWith (agenda : List Event) : State := { State.reset with agenda := agenda }

@[simp] theorem stateT1_rootOf (c : Byte) : stateT1.rootOf c = 257 := by simp [stateT1, State.rootOf]

@[simp] theorem stateWalk_rootOf (slot : BitVec 3) (node : Node) (rem : Word) (c : Byte) :
    (stateWalk slot node rem).rootOf c = 257 := by simp [stateWalk, stateBlock, stateT1, State.rootOf]

theorem stateT1_treeBuilt (c : Byte) : stateT1.TreeBuilt c := by
  have h : stateT1.child[c.toNat] = [(0, 1), (2, 256)] := by simp [stateT1]
  refine ⟨by rw [h]; decide, by rw [h, stateT1_rootOf]; decide, ?_⟩
  rw [h]
  intro k hk
  have hk2 : k = 0 ∨ k = 1 := by simp at hk; omega
  rcases hk2 with rfl | rfl <;> simp [Config.nsym]

/-! ## One step of each instruction -/

/-- BV5: a tie between leaf 0 and internal node 256 goes to the lower number. -/
theorem test_build_tie : (buildContext ([2, 1, 1] ++ List.replicate 253 0)).pairs = [(1, 2), (0, 256)] := by
  decide +kernel

/-- BV7: sums above 8 bits. -/
theorem test_build_sums : (buildContext ([255, 255, 255] ++ List.replicate 253 0)).scratch.count 257 = 765 := by
  decide +kernel

/-- P1's walk, slot 0: node 257, bit 0, node 2. -/
theorem test_decode_slot0 : (stateWalk 0 257 4).slotStep.dp.node = 2 := by decide +kernel

/-- P1's walk, slot 1: node 2 is emitted, three bytes are owed, the context is 2 and bit 1 leads from its root to 256. -/
theorem test_decode_slot1 :
    (stateWalk 1 2 4).slotStep.dp.ctx = 2 ∧ (stateWalk 1 2 4).slotStep.dp.rem = 3 ∧
      (stateWalk 1 2 4).slotStep.dp.node = 256 := by decide +kernel

/-- CV1: RELEASE with a table leaves STATUS = 0x0000_0002. -/
theorem test_release_with_table : ∃ t, exec .release stateT1 = .next t ∧ t.statusWord = 0x00000002#32 :=
  ⟨_, rfl, by decide⟩

/-- CV2: RELEASE without a table leaves STATUS = 0x0000_0002. -/
theorem test_release_without_table : ∃ t, exec .release State.reset = .next t ∧ t.statusWord = 0x00000002#32 :=
  ⟨_, rfl, by decide⟩

/-! ## Words that are no command, and the bus -/

/-- CV3: the word 0 with a table leaves STATUS = 0x0000_0106. -/
theorem test_bad_cmd : ∃ t, submitWord 0 stateT1 = .next t ∧ t.statusWord = 0x00000106#32 := ⟨_, rfl, by decide⟩

/-- CV4: a legal OP with RSV set leaves STATUS = 0x0000_0106. -/
theorem test_bad_cmd_rsv : ∃ t, submitWord 0x11 stateT1 = .next t ∧ t.statusWord = 0x00000106#32 := ⟨_, rfl, by decide⟩

/-- DR2: without a table DECODE reports NO_TABLE, STATUS = 0x0000_0202. -/
theorem test_decode_no_table : ∃ t, submitWord 2 State.reset = .next t ∧ t.statusWord = 0x00000202#32 :=
  ⟨_, rfl, by decide⟩

/-- P2: with a table BUILD reports TABLE_PRESENT, STATUS = 0x0000_0306. -/
theorem test_build_table_present : ∃ t, submitWord 1 stateT1 = .next t ∧ t.statusWord = 0x00000306#32 :=
  ⟨_, rfl, by decide⟩

/-- MV5: a byte read of a register is a bus error. -/
theorem test_bus_narrow_register : (State.reset.hostRead 0x004 1).faults = [.busError 0x004 1] := by decide

/-- MV6: a misaligned write is a bus error. -/
theorem test_bus_misaligned : regionOf Params.default 0x100001 2 = none := by decide

/-- MV8: a read past IN is a bus error. -/
theorem test_bus_past_in : regionOf Params.default 0x110000 4 = none := by decide

/-- MV9: a word written to IN reads back little-endian in bytes and halves. -/
theorem test_bus_little_endian :
    let s := State.reset.writeBuffer 0x100000 (leBytes 4 0x1A000004)
    s.readLE 0x100000 1 = 0x04 ∧ s.readLE 0x100003 1 = 0x1A ∧ s.readLE 0x100002 2 = 0x1A00 := by decide

/-- P1: TDATA of context 0, node 257 reads 0x0100_0002. -/
theorem test_tdata : State.readRegister { stateT1 with taddrNode := 257 } 0x01C = 0x01000002#32 := by
  decide +kernel

/-! ## Witnesses: the hypotheses of each obligation are met, each clause at a boundary value -/

/-- Any memory of IN and OUT bytes and any IN_LEN beside T1 make a legal state. -/
theorem stateT1_legal (mem : Memory) (len : Word) (hwf : Memory.wf mem)
    (hwin : ∀ cell ∈ mem, Params.window Params.default cell.1) :
    State.Legal { stateT1 with mem := mem, inLen := len } where
  params := rfl
  memWf := hwf
  memWindow := hwin
  table := fun _ c => stateT1_treeBuilt c
  busyFlags := nofun
  diagnostics := by rintro (h | h) <;> cases h
  building := nofun
  walking := nofun
  results := ⟨Nat.zero_le _, Nat.zero_le _⟩
  racedIdle := fun _ => rfl
  faultSet := List.nodup_nil

theorem inCells_window (bytes : List Byte) (h : bytes.length ≤ 65536) :
    ∀ cell ∈ inCells bytes, Params.window Params.default cell.1 := by
  intro cell hc
  obtain ⟨p, hp, rfl⟩ := List.mem_map.mp hc
  have := (List.mem_zipIdx hp).2.1
  refine .inl ⟨by simp [inAddr], ?_⟩
  have : p.2 < 65536 := by omega
  simp [inAddr, Params.default]
  omega

theorem test_witness_StepRunsTheDecodedCommand :
    (State.reset.withFetchWord 32 1).agenda = submitEvent 1 :: [] ∧ decodeWord 1 = .ok .build := by decide

theorem test_witness_IllegalCommandWordIsBadCmd :
    ∀ w ∈ [0x00000000#32, 0x00000004#32, 0x0000000F#32, 0x00000011#32, 0x80000001#32],
      (stateWith [submitEvent w]).agenda = submitEvent w :: [] ∧ (stateWith [submitEvent w]).busy = false ∧
        ∃ e, decodeWord w = .error e := by
  intro w hw
  refine ⟨rfl, rfl, ?_⟩
  simp only [List.mem_cons, List.not_mem_nil, or_false] at hw
  rcases hw with rfl | rfl | rfl | rfl | rfl
  · exact ⟨.unassignedOp 0, by decide⟩
  · exact ⟨.unassignedOp 4, by decide⟩
  · exact ⟨.unassignedOp 15, by decide⟩
  · exact ⟨.reservedBits 1, by decide⟩
  · exact ⟨.reservedBits 0x8000000, by decide⟩

theorem test_witness_BusyCommandWriteIsDropped :
    let s := { stateWith [submitEvent 1] with seq := .decode }
    s.agenda = submitEvent 1 :: [] ∧ s.busy = true := by decide

theorem test_witness_AcceptedCommandClearsFlags : State.reset.busy = false ∧ stateT1.busy = false := by decide

theorem test_witness_CommandWriteFrame :
    (∃ t, exec .build State.reset = .next t) ∧ (∃ t, exec .decode stateT1 = .next t) ∧
      (∃ t, exec .release stateT1 = .next t) ∧ Instr.build ≠ .release ∧ Instr.build ≠ .decode :=
  ⟨⟨_, rfl⟩, ⟨_, rfl⟩, ⟨_, rfl⟩, by decide, by decide⟩

theorem test_witness_BuildRefusedWhileTableValid : stateT1.busy = false ∧ stateT1.tableValid = true := by decide

theorem test_witness_BuildAcceptedEntersContextZero :
    State.reset.busy = false ∧ State.reset.tableValid = false := by decide

theorem test_witness_BuildRunsToAValidTable :
    State.reset.busy = false ∧ State.reset.tableValid = false ∧ (0 < 256) ∧ 255 < 256 := by decide

/-- The row of T1. -/
def rowT1 : List Byte := [1, 1, 2] ++ List.replicate 253 0

theorem test_witness_InitContextCopiesTheRow :
    rowT1.length = 256 ∧ 0 < rowT1.length ∧ 255 < rowT1.length ∧ (256 ≤ 256 ∧ 256 < 511) ∧ (256 ≤ 510 ∧ 510 < 511) := by
  decide +kernel

/-- Both ends of the range of n, and both answers of Pick. -/
theorem test_witness_PickFindsLowestCountThenLowestNumber :
    0 ≤ 511 ∧ 511 ≤ 511 ∧ pickNode (initContext rowT1) 0 = none ∧ pickNode (initContext rowT1) 511 = some 0 := by
  decide +kernel

/-- A turn for each clause: at node 511, with two picks, with none, and with one. -/
theorem test_witness_MergeTurnLinksTheTwoPicks :
    ({ pairs := List.replicate 255 (0, 1), scratch := initContext [] } : Growth).numNodes = 511 ∧
      ({ pairs := List.replicate 254 (0, 1), scratch := initContext [] } : Growth).numNodes < 511 ∧
      (pickNode (initContext rowT1) 256 = some 0 ∧ pickNode ((initContext rowT1).mark 0) 256 = some 1) ∧
      pickNode (initContext []) 256 = none ∧
      (pickNode (initContext [7]) 256 = some 0 ∧ pickNode ((initContext [7]).mark 0) 256 = none) := by
  decide +kernel

/-- Rows of 256 counts with k = 0, 1, 2, 3 and 256. -/
theorem test_witness_rows :
    (∀ row ∈ [List.replicate 256 0, [7] ++ List.replicate 255 0, [5, 5] ++ List.replicate 254 0, rowT1,
        List.replicate 256 255], row.length = 256) ∧
      2 ≤ nonzeroSymbols ([5, 5] ++ List.replicate 254 0) ∧ 2 ≤ nonzeroSymbols (List.replicate 256 255) := by
  decide +kernel

theorem test_witness_RootNumberIsGivenByNonzeroCounts : rowT1.length = 256 ∧ nonzeroSymbols rowT1 = 3 := by
  decide +kernel

theorem test_witness_InternalCountsNeverWrap :
    rowT1.length = 256 ∧ 0 < (buildContext rowT1).pairs.length ∧ 1 < (buildContext rowT1).pairs.length := by
  decide +kernel

theorem test_witness_RootCountIsTheRowSum :
    rowT1.length = 256 ∧ 2 ≤ nonzeroSymbols rowT1 ∧ rowSum rowT1 = 4 := by decide +kernel

theorem test_witness_EveryNonzeroSymbolIsOneChild : rowT1.length = 256 ∧ 2 ≤ nonzeroSymbols rowT1 := by decide +kernel

theorem rowT1_pairs : (buildContext rowT1).pairs = [(0, 1), (2, 256)] := by decide +kernel

/-- A symbol with a code, one without, and a code that begins with a code: itself. -/
theorem test_witness_CodesAreUniqueAndPrefixFree :
    rowT1.length = 256 ∧ 2 ≤ nonzeroSymbols rowT1 ∧ rowT1[(2 : Byte).toNat]? ≠ some 0 ∧
      rowT1[(255 : Byte).toNat]? = some 0 ∧
      CodePath (buildContext rowT1).pairs (BitVec.ofNat 9 ((buildContext rowT1).numNodes - 1)) [false] 2 ∧
      CodePath (buildContext rowT1).pairs (BitVec.ofNat 9 ((buildContext rowT1).numNodes - 1)) ([false] ++ []) 2 := by
  have h : CodePath (buildContext rowT1).pairs (BitVec.ofNat 9 ((buildContext rowT1).numNodes - 1)) [false] 2 := by
    rw [Growth.numNodes, rowT1_pairs]
    exact .node 257 (2, 256) false [] 2 (by decide +kernel) rfl (.leaf 2)
  exact ⟨by decide +kernel, by decide +kernel, by decide +kernel, by decide +kernel, h, h⟩

theorem test_witness_DecodeWithoutTableIsRefused :
    State.reset.busy = false ∧ State.reset.tableValid = false := by decide

theorem test_witness_DecodeLengthBeyondBufferIsRefused :
    ([65537#32, 0xFFFFFFFF#32].all fun len => decide (
      (stateBlock [] len).busy = false ∧ (stateBlock [] len).tableValid = true ∧
        (stateBlock [] len).params.inSize < (stateBlock [] len).inLen.toNat)) = true := by decide +kernel

theorem test_witness_DecodeShortBlockIsRefused :
    ([0#32, 3#32].all fun len => decide (
      (stateBlock [] len).busy = false ∧ (stateBlock [] len).tableValid = true ∧
        (stateBlock [] len).inLen.toNat ≤ (stateBlock [] len).params.inSize ∧ (stateBlock [] len).inLen.toNat < 4)) = true := by
  decide +kernel

/-- A count one above OUT_SIZE, with the shortest and the longest block. -/
theorem test_witness_DecodeCountBeyondOutputIsRefused :
    ([4#32, 65536#32].all fun len => decide (
      (stateBlock [1, 0, 16, 0] len).busy = false ∧ (stateBlock [1, 0, 16, 0] len).tableValid = true ∧
        (stateBlock [1, 0, 16, 0] len).inLen.toNat ≤ (stateBlock [1, 0, 16, 0] len).params.inSize ∧
        4 ≤ (stateBlock [1, 0, 16, 0] len).inLen.toNat ∧
        (stateBlock [1, 0, 16, 0] len).params.outSize < (stateBlock [1, 0, 16, 0] len).headerCount.toNat)) = true := by decide +kernel

/-- A count of exactly OUT_SIZE, with the shortest and the longest block. -/
theorem test_witness_DecodeAcceptedStartsTheWalk :
    ([4#32, 65536#32].all fun len => decide (
      (stateBlock [0, 0, 16, 0] len).busy = false ∧ (stateBlock [0, 0, 16, 0] len).tableValid = true ∧
        (stateBlock [0, 0, 16, 0] len).inLen.toNat ≤ (stateBlock [0, 0, 16, 0] len).params.inSize ∧
        4 ≤ (stateBlock [0, 0, 16, 0] len).inLen.toNat ∧
        (stateBlock [0, 0, 16, 0] len).headerCount.toNat ≤ (stateBlock [0, 0, 16, 0] len).params.outSize)) = true := by decide +kernel

/-- `stateWalk` before slot 0 of the byte at offset `off`, the block `len` bytes long. -/
def stateFetch (off : Count21) (len : Word) (raced : List Nat) : State :=
  { stateWalk 0 257 4 with dp := { (stateWalk 0 257 4).dp with off := off }, inLenL := len, raced := raced }

/-- Slot 7; slot 0 at the last byte of IN, inside the block, past it, and raced. -/
theorem test_witness_PassBeginsWithAFetch :
    ((stateWalk 7 257 4).seq = .decode ∧ (stateWalk 7 257 4).dp.slot ≠ 0) ∧
      (let s := stateFetch 65535 65536 []
       s.seq = .decode ∧ s.dp.slot = 0 ∧ s.dp.rem ≠ 0 ∧ s.dp.off.toNat < s.params.inSize ∧
         s.dp.off.toNat < s.inLenL.toNat ∧ inAddr s.dp.off.toNat ∉ s.raced) ∧
      (let s := stateFetch 65535 65535 []
       s.dp.slot = 0 ∧ s.dp.rem ≠ 0 ∧ s.dp.off.toNat < s.params.inSize ∧ s.inLenL.toNat ≤ s.dp.off.toNat) ∧
      (let s := stateFetch 4 5 [inAddr 4]
       s.dp.slot = 0 ∧ s.dp.rem ≠ 0 ∧ s.dp.off.toNat < s.params.inSize ∧ inAddr s.dp.off.toNat ∈ s.raced) := by decide

theorem test_witness_FetchAtBufferEndIsExhausted :
    let s := stateFetch 65536 65536 []
    s.seq = .decode ∧ s.dp.slot = 0 ∧ s.dp.rem ≠ 0 ∧ s.params.inSize ≤ s.dp.off.toNat := by decide

theorem test_witness_BitSelectsTheChild :
    256 ≤ (stateWalk 0 256 4).dp.node.toNat ∧ 256 ≤ (stateWalk 0 257 4).dp.node.toNat ∧
      (stateWalk 0 256 4).child[(stateWalk 0 256 4).dp.ctx.toNat][(stateWalk 0 256 4).dp.node.toNat - 256]? =
        some (0, 1) := by decide +kernel

/-- Leaf 255, and two bytes owed. -/
theorem test_witness_LeafIsEmittedAndSwitchesContext :
    (stateWalk 1 255 2).dp.node = (255 : Byte).setWidth 9 ∧ (stateWalk 1 255 2).dp.rem ≠ 1 ∧
      256 ≤ ((stateWalk 1 255 2).rootOf 255).toNat ∧
      outAddr (stateWalk 1 255 2).dp.e.toNat ∉ (stateWalk 1 255 2).raced := by
  refine ⟨by decide, by decide, by rw [stateWalk_rootOf]; decide, by decide⟩

/-- The table T2 of the vectors in context 2: a root that is leaf 255. -/
theorem test_witness_SwitchToALeafRootIsDegenerate :
    let s := { stateWalk 1 2 4 with root := (Vector.replicate 256 257).set 2 255 }
    s.dp.node = (2 : Byte).setWidth 9 ∧ s.dp.rem ≠ 1 ∧ (s.rootOf 2).toNat < 256 ∧
      outAddr s.dp.e.toNat ∉ s.raced := by decide +kernel

theorem test_witness_LastLeafCompletesTheBlock :
    (stateWalk 1 2 1).dp.node = (2 : Byte).setWidth 9 ∧ (stateWalk 1 2 1).dp.rem = 1 ∧
      outAddr (stateWalk 1 2 1).dp.e.toNat ∉ (stateWalk 1 2 1).raced := by decide

theorem test_witness_EmptyBlockCompletesWithoutAFetch :
    ([4#32, 65536#32].all fun len => decide (
      (stateBlock [0, 0, 0, 0] len).busy = false ∧ (stateBlock [0, 0, 0, 0] len).tableValid = true ∧
        (stateBlock [0, 0, 0, 0] len).inLen.toNat ≤ (stateBlock [0, 0, 0, 0] len).params.inSize ∧
        4 ≤ (stateBlock [0, 0, 0, 0] len).inLen.toNat ∧ (stateBlock [0, 0, 0, 0] len).headerCount = 0)) = true := by decide +kernel

/-- 30_encoding.md R99: LOADIN 5, 7 9 is the byte writes WR8 0x10_0005, 7 and WR8 0x10_0006, 9. -/
theorem test_loadIn_writes_bytes_in_order :
    loadInEvents 5 [7, 9] = [.host (.wr8 0x100005 7), .host (.wr8 0x100006 9)] := by decide

/-- log 16: no byte of a LOADIN past the host space wraps to an offset inside it. -/
theorem test_loadIn_past_the_window : loadInEvents 0x2FFFFF [7, 9] = [.host (.wr8 0x3FFFFF 7)] := by decide

/-- The first context with its first byte raced and its last one not, and the last context. -/
theorem test_witness_BuildStepBuildsItsContext :
    let s := { State.reset with seq := .build 0, raced := [inAddr 0] }
    s.seq = .build 0 ∧ inAddr (256 * (0 : Byte).toNat + 0) ∈ s.raced ∧ inAddr (256 * (0 : Byte).toNat + 255) ∉ s.raced ∧
      (0 : Byte) ≠ 255 ∧ ({ s with seq := .build 255 } : State).seq = .build 255 := by decide

theorem test_witness_BuildStepFrame : ({ State.reset with seq := .build 255 } : State).seq = .build 255 := rfl

theorem test_witness_DecodeStepFrame : (stateWalk 0 257 4).seq = .decode := by decide

theorem test_witness_DecodeCompletesWithinItsBound :
    let s := stateBlock [0, 0, 16, 0] 4
    s.Legal ∧ s.busy = false ∧ s.tableValid = true ∧ s.inLen.toNat ≤ s.params.inSize ∧ 4 ≤ s.inLen.toNat ∧
      s.headerCount.toNat ≤ s.params.outSize :=
  ⟨stateT1_legal _ _ (by decide) (inCells_window _ (by decide)), by decide, by decide, by decide, by decide,
    by decide⟩

theorem stateBlock_code_two (bytes : List Byte) (len : Word) (c : Byte) :
    CodePath (stateBlock bytes len).child[c.toNat] ((stateBlock bytes len).rootOf c) [false] 2 := by
  have h : (stateBlock bytes len).child[c.toNat] = [(0, 1), (2, 256)] := by simp [stateBlock, stateT1]
  rw [h, show (stateBlock bytes len).rootOf c = 257 from stateT1_rootOf c]
  exact .node 257 (2, 256) false [] 2 (by decide) rfl (.leaf 2)

theorem stateBlock_code_zero (bytes : List Byte) (len : Word) (c : Byte) :
    CodePath (stateBlock bytes len).child[c.toNat] ((stateBlock bytes len).rootOf c) [true, false] 0 := by
  have h : (stateBlock bytes len).child[c.toNat] = [(0, 1), (2, 256)] := by simp [stateBlock, stateT1]
  rw [h, show (stateBlock bytes len).rootOf c = 257 from stateT1_rootOf c]
  exact .node 257 (2, 256) true [false] 0 (by decide) rfl (.node 256 (0, 1) false [] 0 (by decide) rfl (.leaf 0))

/-- The first two bytes of DV1, 2 and 0, sent as the bits 0, 1, 0. -/
theorem test_witness_RoundTripOfEncodedBlock :
    let s := stateBlock [2, 0, 0, 0, 0x02] 5
    s.Legal ∧ s.busy = false ∧ s.tableValid = true ∧ s.Encodes 0 [2, 0] [false, true, false] ∧
      s.inLen.toNat = 4 + ([false, true, false].length + 7) / 8 ∧ s.inLen.toNat < s.params.inSize ∧
      [2, 0].length ≤ s.params.outSize ∧ s.headerCount.toNat = [2, 0].length ∧
      ∀ k (h : k < [false, true, false].length),
        (s.readByte (inAddr (4 + k / 8))).getLsbD (k % 8) = [false, true, false][k]'h := by
  have root : ∀ c, Config.nsym ≤ ((stateBlock [2, 0, 0, 0, 0x02] 5).rootOf c).toNat := by
    intro c
    rw [show (stateBlock [2, 0, 0, 0, 0x02] 5).rootOf c = 257 from stateT1_rootOf c]
    decide
  refine ⟨stateT1_legal _ _ (by decide) (inCells_window _ (by decide)), by decide, by decide, ?_, by decide, by decide,
    by decide, by decide, by decide⟩
  exact ⟨[false], [true, false], rfl, root 0, stateBlock_code_two _ _ 0,
    [true, false], [], rfl, root 2, stateBlock_code_zero _ _ 2, rfl⟩

theorem test_witness_ReleaseCompletesAtOnce : stateT1.busy = false ∧ State.reset.busy = false := by decide

/-- The default parameters, and the last access of each region. -/
theorem test_witness_AdmittedAccessesAreAlignedAndInside :
    Params.default.wellFormed = true ∧ regionOf Params.default 0x0FC 4 = some .registers ∧
      regionOf Params.default 0x10FFFF 1 = some .inBuf ∧ regionOf Params.default 0x2FFFFE 2 = some .outBuf := by decide

/-- One access of each kind that is no access: narrow, unmapped, past IN, past OUT and misaligned. -/
theorem test_witness_BusErrorHasNoEffect :
    (stateWith [.host (.rd8 0x004)]).agenda = [.host (.rd8 0x004)] ∧ regionOf State.reset.params 0x004 1 = none ∧
      regionOf State.reset.params 0x0FE 2 = none ∧ regionOf State.reset.params 0x100 4 = none ∧
      regionOf State.reset.params 0x110000 1 = none ∧ regionOf State.reset.params 0x300000 2 = none ∧
      regionOf State.reset.params 0x100002 4 = none := by decide

/-- Legal reads of each width, and a narrow read of a register, which is a bus error. -/
theorem test_witness_ReadsHaveNoSideEffect :
    (∀ t ∈ [HostTxn.rd8 0x10FFFF, .rd16 0x200000, .rd32 0x000, .rd8 0x004],
        (stateWith [.host t]).agenda = .host t :: []) ∧
      regionOf State.reset.params 0x10FFFF 1 ≠ none ∧ regionOf State.reset.params 0x200000 2 ≠ none ∧
      regionOf State.reset.params 0x000 4 ≠ none ∧ regionOf State.reset.params 0x004 1 = none :=
  ⟨fun _ _ => rfl, by decide⟩

/-- Every register of the clause, and both ends of the reserved words. -/
theorem test_witness_ExactRegisterReads :
    (∀ a ∈ [(0x000 : Offset), 0x004, 0x008, 0x018, 0x024, 0x028, 0x02C, 0x0FC],
        (stateWith [.host (.rd32 a)]).agenda = .host (.rd32 a) :: []) ∧
      ([(0x02C : Offset), 0x0FC].all fun a => decide (0x02C ≤ a.toNat ∧ a.toNat ≤ 0x0FC ∧ a.toNat % 4 = 0)) = true :=
  ⟨fun _ _ => rfl, by decide⟩

theorem test_witness_ResultRegisterReadsWhileIdle :
    ∀ a ∈ [(0x00C : Offset), 0x010, 0x014],
      (stateWith [.host (.rd32 a)]).agenda = .host (.rd32 a) :: [] ∧ (stateWith [.host (.rd32 a)]).busy = false :=
  fun _ _ => ⟨rfl, rfl⟩

/-- TROOT; TDATA at the leaf number 255, at 511, and at the built nodes 256 and 257. -/
theorem test_witness_TableReadback :
    stateT1.busy = false ∧ stateT1.tableValid = true ∧
      ({ stateT1 with agenda := [.host (.rd32 0x020)] } : State).agenda = [.host (.rd32 0x020)] ∧
      ({ stateT1 with agenda := [.host (.rd32 0x01C)] } : State).agenda = [.host (.rd32 0x01C)] ∧
      (255#9).toNat < 256 ∧ (511#9).toNat = 511 ∧
      ∀ n ∈ [256#9, 257#9], 256 ≤ n.toNat ∧ n.toNat ≠ 511 ∧ n.toNat ≤ (stateT1.root[(0 : Byte).toNat]).toNat ∧
        (stateT1.child[(0 : Byte).toNat][n.toNat - 256]?).isSome := by decide +kernel

theorem test_witness_RegisterWrites :
    (∀ a ∈ [(0x008 : Offset), 0x018, 0x004, 0x0FC],
        (stateWith [.host (.wr32 a 7)]).agenda = .host (.wr32 a 7) :: []) ∧
      ([(0x004 : Offset), 0x0FC].all fun a =>
        decide (a ≠ 0x000 ∧ a ≠ 0x008 ∧ a ≠ 0x018 ∧ a.toNat < 0x100 ∧ a.toNat % 4 = 0)) = true :=
  ⟨fun _ _ => rfl, by decide⟩

/-- The first and the last word of each buffer, and the last byte and the last half of one. -/
theorem test_witness_BufferWritesAreLittleEndian :
    (∀ t ∈ [HostTxn.wr8 0x10FFFF 7, .wr16 0x2FFFFE 7], (stateWith [.host t]).agenda = .host t :: []) ∧
      regionOf State.reset.params 0x10FFFF 1 = some .inBuf ∧ regionOf State.reset.params 0x2FFFFE 2 = some .outBuf ∧
      (∀ a ∈ [(0x100000 : Offset), 0x10FFFC, 0x200000, 0x2FFFFC],
      (stateWith [.host (.wr32 a 7)]).agenda = .host (.wr32 a 7) :: [] ∧
        (stateWith [.host (.wr32 a 7)]).busy = false) ∧
      ([(0x100000 : Offset), 0x10FFFC].all fun a => decide (regionOf State.reset.params a.toNat 4 = some .inBuf)) = true ∧
      ([(0x200000 : Offset), 0x2FFFFC].all fun a => decide (regionOf State.reset.params a.toNat 4 = some .outBuf)) = true :=
  ⟨fun _ _ => rfl, by decide, by decide, fun _ _ => ⟨rfl, rfl⟩, by decide, by decide⟩

theorem test_witness_BufferReadsWhileIdle :
    (stateWith [.host (.rd8 0x10FFFF)]).agenda = [.host (.rd8 0x10FFFF)] ∧
      (stateWith [.host (.rd8 0x10FFFF)]).busy = false ∧ (regionOf State.reset.params 0x10FFFF 1).isSome ∧
      (stateWith [.host (.rd16 0x2FFFFE)]).agenda = [.host (.rd16 0x2FFFFE)] ∧
      (regionOf State.reset.params 0x2FFFFE 2).isSome ∧
      (stateWith [.host (.rd32 0x10FFFC)]).agenda = [.host (.rd32 0x10FFFC)] ∧
      regionOf State.reset.params 0x10FFFC 4 = some .inBuf ∧ regionOf State.reset.params 0x2FFFFC 4 = some .outBuf := by
  decide

/-- A write of each width into IN[4] of the walk under way. -/
theorem test_witness_RacingWriteIsRecorded :
    ∀ t ∈ [(HostTxn.wr8 0x100004 0, [0#8]), (.wr16 0x100004 0, leBytes 2 0), (.wr32 0x100004 0, leBytes 4 0)],
      ({ stateWalk 0 257 4 with agenda := [.host t.1] } : State).agenda = .host t.1 :: [] ∧
        ({ stateWalk 0 257 4 with agenda := [.host t.1] } : State).busy = true ∧
        regionOf State.reset.params 0x100004 t.2.length = some .inBuf ∧ 0 < t.2.length ∧ inAddr 4 = 0x100004 + 0 ∧
        outAddr 0 = 0x200000 + 0 := by decide

theorem test_witness_WaitPollsStatus :
    (stateWith [.wait]).agenda = [.wait] ∧ (stateWith [.wait]).busy = false ∧
      ({ stateWith [.wait] with seq := .build 0 } : State).busy = true := by decide

theorem test_witness_ResetValues : ∀ t : State, State.reset = State.reset ∧ t.platformReset = t.platformReset :=
  fun _ => ⟨rfl, rfl⟩

theorem test_witness_ResetAbandonsTheCommand :
    ({ stateWalk 0 257 4 with agenda := [.reset] } : State).agenda = .reset :: [] ∧
      (stateWalk 0 257 4).busy = true := by decide

/-- The completion of a BUILD sets TABLE_VALID; an accepted RELEASE and a reset clear it. -/
theorem test_witness_TableValidWriters :
    (∃ t, step { State.reset with seq := .build 255 } = .next t ∧ State.reset.tableValid = false ∧
        t.tableValid = true) ∧
      (∃ t, step { stateT1 with agenda := [submitEvent (encode .release)] } = .next t ∧ stateT1.tableValid = true ∧
        t.tableValid = false) ∧
      ∃ t, step { stateT1 with agenda := [.reset] } = .next t ∧ stateT1.tableValid = true ∧ t.tableValid = false :=
  ⟨⟨_, rfl, rfl, rfl⟩, ⟨_, rfl, rfl, rfl⟩, ⟨_, rfl, rfl, rfl⟩⟩

theorem test_witness_ValidTableIsImmutable :
    stateT1.Legal ∧ stateT1.tableValid = true ∧ stateT1.agenda.head? ≠ some .reset ∧ ∃ t, step stateT1 = .next t :=
  ⟨stateT1_legal [] 0 Memory.wf_nil (by simp), rfl, by decide, ⟨_, rfl⟩⟩

theorem test_witness_FaultsAreNeverCleared :
    let s := { State.reset with faults := [.busError 0x004 1] }
    (∃ t, step s = .next t) ∧ .busError 0x004 1 ∈ s.faults := ⟨⟨_, rfl⟩, by decide⟩

theorem test_witness_OnlyCommandWritesChangeFlags :
    (stateWith [.host (.wr32 0x008 5)]).agenda = .host (.wr32 0x008 5) :: [] ∧
      (∀ w, HostTxn.wr32 0x008 5 ≠ .wr32 0x000 w) ∧ ∃ t, step (stateWith [.host (.wr32 0x008 5)]) = .next t := by
  refine ⟨rfl, ?_, ⟨_, rfl⟩⟩
  intro w h
  injection h with h _
  exact absurd h (by decide)

theorem test_witness_ParametersAreConstant : ∃ t, step State.reset = .next t := ⟨_, rfl⟩

theorem test_witness_StepKeepsLegal : stateT1.Legal ∧ ∃ t, step stateT1 = .next t :=
  ⟨stateT1_legal [] 0 Memory.wf_nil (by simp), ⟨_, rfl⟩⟩

/-- The state in which BUILD has just been accepted. -/
theorem test_witness_CommandInProgressCompletes :
    let s := { State.reset with seq := .build 0 }
    s.Legal ∧ s.busy = true ∧ s.agenda = [] := by
  refine ⟨?_, rfl, rfl⟩
  exact {
    params := by decide
    memWf := Memory.wf_nil
    memWindow := nofun
    table := nofun
    busyFlags := fun _ => ⟨rfl, rfl, rfl, rfl⟩
    diagnostics := by rintro (h | h) <;> cases h
    building := by
      intro c h
      cases h
      exact ⟨rfl, fun d hd => absurd hd (Nat.not_lt_zero _)⟩
    walking := nofun
    results := ⟨by decide, by decide⟩
    racedIdle := nofun
    faultSet := List.nodup_nil }

end Sys2Proof.Machine
end

section
/-! SUPPORT. What BUILD stores in one context: Pick answers a node below the next one, so every build has at most 255
pairs with children below their parents (40_build.md R112, R114, R119), and what the store leaves alone. -/

namespace Sys2Proof.Machine

/-- One turn of Pick's search keeps the best node so far or takes the turn's own node. -/
theorem pickTurn_cases (best : Option (Nat × Half)) (x : (Half × Bool) × Nat) :
    pickTurn best x = best ∨ pickTurn best x = some (x.2, x.1.1) := by
  obtain ⟨⟨count, used⟩, i⟩ := x
  simp only [pickTurn]
  split_ifs
  · exact .inl rfl
  · exact .inl rfl
  · cases best with
    | none => exact .inr rfl
    | some b => dsimp only; split_ifs <;> simp

/-- Pick's search answers what it started from or a node of its list. -/
theorem foldl_pickTurn_mem {l : List ((Half × Bool) × Nat)} {best : Option (Nat × Half)} {b : Nat × Half}
    (h : l.foldl pickTurn best = some b) : best = some b ∨ ∃ x ∈ l, x.2 = b.1 := by
  induction l generalizing best with
  | nil => exact .inl h
  | cons x l ih =>
    rcases ih h with h | ⟨y, hy, hb⟩
    · rcases pickTurn_cases best x with hx | hx
      · exact .inl (hx.symm.trans h)
      · have hb : (x.2, x.1.1) = b := Option.some.inj (hx.symm.trans h)
        exact .inr ⟨x, List.mem_cons_self, congrArg Prod.fst hb⟩
    · exact .inr ⟨y, List.mem_cons_of_mem x hy, hb⟩

/-- Pick(n) answers a node below n. -/
theorem pickNode_lt {sc : Scratch} {n b : Nat} (hn : n ≤ 511) (h : pickNode sc n = some b) : b < n := by
  rw [pickNode_eq_search sc hn] at h
  obtain ⟨p, hp, rfl⟩ := Option.map_eq_some_iff.mp h
  rcases foldl_pickTurn_mem hp with h | ⟨x, hx, hb⟩
  · cases h
  · obtain ⟨i, hi, rfl⟩ := List.mem_map.mp hx
    exact hb ▸ List.mem_range.mp hi

/-- A pair of nodes below the next node number may be put at the end of a context's pairs. -/
theorem ChildrenBelow.concat {pairs : List (Node × Node)} (h : ChildrenBelow pairs) {p : Node × Node}
    (h1 : p.1.toNat < 256 + pairs.length) (h2 : p.2.toNat < 256 + pairs.length) : ChildrenBelow (pairs ++ [p]) := by
  intro k hk
  by_cases hlt : k < pairs.length
  · rw [List.getElem_append_left hlt]
    exact h k hlt
  · have hkl : k = pairs.length := by simp at hk; omega
    subst hkl
    simpa using ⟨h1, h2⟩

/-- A node number cut to nine bits does not grow. -/
theorem toNat_ofNat9_le (a : Nat) : (BitVec.ofNat 9 a).toNat ≤ a := by
  rw [BitVec.toNat_ofNat]
  exact Nat.mod_le a _

/-- The merge loop keeps its bounds: at most 255 pairs, and children below their parents. -/
theorem mergeLoop_pairs_bounded (fuel : Nat) {g : Growth} (hlen : g.pairs.length ≤ 255) (hg : ChildrenBelow g.pairs) :
    (mergeLoop fuel g).pairs.length ≤ 255 ∧ ChildrenBelow (mergeLoop fuel g).pairs := by
  induction fuel generalizing g with
  | zero => exact ⟨hlen, hg⟩
  | succ fuel ih =>
    rcases mergeLoop_cases fuel g with ⟨_, h⟩ | ⟨_, _, h⟩ | ⟨a, _, _, _, h⟩ | ⟨a, b, hne, ha, hb, h⟩ <;> rw [h]
    · exact ⟨hlen, hg⟩
    · exact ⟨hlen, hg⟩
    · exact ⟨hlen, hg⟩
    · have hn : g.numNodes = 256 + g.pairs.length := rfl
      have ha := (toNat_ofNat9_le a).trans_lt (pickNode_lt (by omega) ha)
      have hb := (toNat_ofNat9_le b).trans_lt (pickNode_lt (by omega) hb)
      refine ih ?_ (hg.concat (hn ▸ ha) (hn ▸ hb))
      simp only [Growth.link, List.length_append, List.length_singleton]
      omega

/-- A context is built with at most 255 pairs, whose children are below their parents. -/
theorem buildContext_pairs_bounded (row : List Byte) :
    (buildContext row).pairs.length ≤ 255 ∧ ChildrenBelow (buildContext row).pairs :=
  mergeLoop_pairs_bounded 256 (Nat.zero_le 255) fun _ hk => absurd hk (Nat.not_lt_zero _)

/-! The table after the store of a context -/

@[simp] theorem State.storeContext_child_self (s : State) (c : Byte) :
    (s.storeContext c).child[c.toNat] = (buildContext (s.frequencyRow c.toNat)).pairs := by
  simp [State.storeContext]

@[simp] theorem State.storeContext_rootOf_self (s : State) (c : Byte) :
    (s.storeContext c).rootOf c = BitVec.ofNat 9 ((buildContext (s.frequencyRow c.toNat)).numNodes - 1) := by
  simp [State.storeContext, State.rootOf]

theorem State.storeContext_child_ne (s : State) {c d : Byte} (h : d ≠ c) :
    (s.storeContext c).child[d.toNat] = s.child[d.toNat] :=
  Vector.getElem_set_ne c.isLt d.isLt fun hcd => h (BitVec.eq_of_toNat_eq hcd.symm)

theorem State.storeContext_rootOf_ne (s : State) {c d : Byte} (h : d ≠ c) :
    (s.storeContext c).rootOf d = s.rootOf d :=
  Vector.getElem_set_ne c.isLt d.isLt fun hcd => h (BitVec.eq_of_toNat_eq hcd.symm)

/-- The context stored is built. -/
theorem State.storeContext_treeBuilt_self (s : State) (c : Byte) : (s.storeContext c).TreeBuilt c := by
  obtain ⟨hlen, hbelow⟩ := buildContext_pairs_bounded (s.frequencyRow c.toNat)
  refine ⟨?_, ?_, ?_⟩
  · rwa [State.storeContext_child_self]
  · rw [State.storeContext_child_self, State.storeContext_rootOf_self, Growth.numNodes, BitVec.toNat_ofNat]
    simp only [Config.nsym]
    omega
  · rwa [State.storeContext_child_self]

/-- A context that was built stays built, whichever context is stored. -/
theorem State.TreeBuilt.storeContext {s : State} {d : Byte} (h : s.TreeBuilt d) (c : Byte) :
    (s.storeContext c).TreeBuilt d := by
  by_cases hdc : d = c
  · exact hdc ▸ s.storeContext_treeBuilt_self d
  · rw [State.TreeBuilt, State.storeContext_child_ne s hdc, State.storeContext_rootOf_ne s hdc]
    exact h

end Sys2Proof.Machine
end

section
/-! SUPPORT. The invariant of the machine: what a legal state keeps whatever its sequencer does, how a completion
ends in a legal state, and that every host event and every block step keeps legality (10_state.md R23, R27, R32 to R41). -/

namespace Sys2Proof.Machine

/-- The part of `State.Legal` that speaks of no command in progress. -/
structure State.Sound (s : State) : Prop where
  params : s.params.wellFormed = true
  memWf : Memory.wf s.mem
  memWindow : ∀ cell ∈ s.mem, Params.window s.params cell.1
  table : s.tableValid = true → ∀ c, s.TreeBuilt c
  results : s.outLen.toNat ≤ s.params.outSize ∧ s.consumed.toNat ≤ s.params.inSize
  faultSet : s.faults.Nodup

theorem State.Legal.sound {s : State} (h : s.Legal) : s.Sound := { h with }

theorem Params.bounds_of_wellFormed {p : Params} (h : p.wellFormed = true) :
    65536 ≤ p.inSize ∧ p.inSize ≤ 1048576 ∧ 1 ≤ p.outSize ∧ p.outSize ≤ 1048576 := by
  simp only [Params.wellFormed, Params.inSizeOk, Params.outSizeOk, Bool.and_eq_true, decide_eq_true_eq] at h
  obtain ⟨⟨_, hin⟩, hout⟩ := h
  exact ⟨hin.1, hin.2, hout.1, hout.2⟩

/-- An idle state with no raced byte is legal when it is sound and its diagnostics come with ERR = NONE and DONE. -/
theorem State.Sound.legal_of_idle {s : State} (h : s.Sound) (hseq : s.seq = .idle) (hraced : s.raced = [])
    (hdiag : s.overread = true ∨ s.underread = true →
      s.err = .none ∧ s.done = true ∧ ¬ (s.overread = true ∧ s.underread = true)) : s.Legal :=
  { h with
    busyFlags := fun hb => absurd hseq (s.busy_eq_true_iff.mp hb)
    diagnostics := hdiag
    building := fun _ hs => by rw [hseq] at hs; cases hs
    walking := fun hs => by rw [hseq] at hs; cases hs
    racedIdle := fun _ => hraced }

/-- The flags that read 0 while a command runs (10_state.md R32 to R37). -/
structure State.FlagsClear (s : State) : Prop where
  done : s.done = false
  err : s.err = .none
  overread : s.overread = false
  underread : s.underread = false

theorem State.Legal.flagsClear {s : State} (h : s.Legal) (hseq : s.seq ≠ .idle) : s.FlagsClear := by
  obtain ⟨hdone, herr, hover, hunder⟩ := h.busyFlags (s.busy_eq_true_iff.mpr hseq)
  exact ⟨hdone, herr, hover, hunder⟩

theorem State.accept_flagsClear (s : State) : s.accept.FlagsClear := ⟨rfl, rfl, rfl, rfl⟩

/-- A busy state is legal when it is sound, its flags are clear and its command's own part holds. -/
theorem State.Sound.legal_of_busy {s : State} (h : s.Sound) (hf : s.FlagsClear) (hseq : s.seq ≠ .idle)
    (hbuild : ∀ c, s.seq = .build c → s.tableValid = false ∧ ∀ d : Byte, d.toNat < c.toNat → s.TreeBuilt d)
    (hwalk : s.seq = .decode → s.Walking) : s.Legal :=
  { h with
    busyFlags := fun _ => ⟨hf.done, hf.err, hf.overread, hf.underread⟩
    diagnostics := fun hd => by simp [hf.overread, hf.underread] at hd
    building := hbuild
    walking := hwalk
    racedIdle := fun hb => absurd (s.busy_eq_false_iff.mp hb) hseq }

/-- A completion with an error is legal. -/
theorem State.Sound.raise_legal {s : State} (h : s.Sound) (e : ErrCode) : (s.raise e).Legal :=
  State.Sound.legal_of_idle { h with } rfl rfl (by rintro (h | h) <;> cases h)

/-- A completion without diagnostics is legal. -/
theorem State.Sound.complete_legal {s : State} (h : s.Sound) (hf : s.FlagsClear) (e : ErrCode) :
    (s.complete e).Legal :=
  State.Sound.legal_of_idle { h with } rfl rfl fun hd => by simp [hf.overread, hf.underread] at hd

/-! The host's events -/

/-- What a host event may change without touching legality: the agenda, what the host has read, the draw counter, TADDR,
IN_LEN and DROPPED. -/
theorem State.Legal.hostOwn {s : State} (h : s.Legal) (agenda : List Event) (reads : List HostRead) (draws : Nat)
    (ctx : Byte) (node : Node) (inLen : Word) (dropped : Bool) :
    State.Legal { s with agenda := agenda, reads := reads, draws := draws, taddrCtx := ctx, taddrNode := node,
                         inLen := inLen, dropped := dropped } :=
  { h with walking := fun hs => { h.walking hs with } }

/-- New contents of memory, raced offsets and faults keep legality when each keeps its own rule. -/
theorem State.Legal.stored {s : State} (h : s.Legal) {mem : Memory} {raced : List Nat} {faults : List Fault}
    (hwf : Memory.wf mem) (hwindow : ∀ cell ∈ mem, Params.window s.params cell.1)
    (hraced : s.busy = false → raced = []) (hfaults : faults.Nodup) :
    State.Legal { s with mem := mem, raced := raced, faults := faults } :=
  { h with
    memWf := hwf, memWindow := hwindow, racedIdle := hraced, faultSet := hfaults
    walking := fun hs => { h.walking hs with } }

theorem State.Legal.recordFault {s : State} (h : s.Legal) (f : Fault) : (s.recordFault f).Legal := by
  rw [State.recordFault_eq]
  exact h.stored h.memWf h.memWindow h.racedIdle (State.recordFault_nodup f h.faultSet)

theorem State.Legal.hostRead {s : State} (h : s.Legal) (a : Offset) (n : Nat) : (s.hostRead a n).Legal := by
  rw [State.hostRead_eq]
  exact (h.stored h.memWf h.memWindow h.racedIdle (State.hostRead_faults_nodup a n h.faultSet)).hostOwn
    s.agenda _ _ s.taddrCtx s.taddrNode s.inLen s.dropped

/-- A buffer write while BUSY = 0 races with nothing. -/
theorem State.writeBuffer_raced_of_idle {s : State} (h : s.busy = false) (a : Offset) (bs : List Byte) :
    (s.writeBuffer a bs).raced = s.raced := by
  rw [State.writeBuffer, h, if_neg Bool.false_ne_true, State.writeBytes_eq]

theorem State.writeBuffer_faults_nodup {s : State} (h : s.faults.Nodup) (a : Offset) (bs : List Byte) :
    (s.writeBuffer a bs).faults.Nodup := by
  have hw : (s.writeBytes a.toNat bs).faults = s.faults := by rw [State.writeBytes_eq]
  unfold State.writeBuffer
  split
  · exact State.recordFault_nodup _ (hw ▸ h)
  · exact hw ▸ h

/-- A write admitted to a window keeps the state legal. -/
theorem State.Legal.writeBuffer {s : State} (h : s.Legal) {a : Offset} {bs : List Byte}
    (hadm : regionOf s.params a.toNat bs.length = some .inBuf ∨ regionOf s.params a.toNat bs.length = some .outBuf) :
    (s.writeBuffer a bs).Legal := by
  rw [State.writeBuffer_eq]
  refine h.stored (State.writeBytes_wf _ _ _ h.memWf) (fun cell hcell => ?_) (fun hb => ?_)
    (State.writeBuffer_faults_nodup h.faultSet a bs)
  · rcases State.mem_writeBytes hcell with hold | hnew
    · exact h.memWindow cell hold
    · rcases regionOf_window hadm with hin | hout
      · exact .inl (by omega)
      · exact .inr (by omega)
  · rw [State.writeBuffer_raced_of_idle hb, h.racedIdle hb]

theorem State.Legal.poll {s : State} (h : s.Legal) : s.poll.Legal := by
  have hr := h.hostRead 0x004 4
  unfold State.poll
  dsimp only
  split
  · exact hr.hostOwn _ _ _ _ _ _ _
  · exact hr

/-- A reset gives a legal state, whatever the state before it (70_reset_and_hazards.md R230). -/
theorem State.Legal.platformReset {s : State} (h : s.Legal) : s.platformReset.Legal :=
  State.Sound.legal_of_idle
    { params := h.params
      memWf := Memory.wf_nil
      memWindow := fun _ hc => absurd hc List.not_mem_nil
      table := fun ht => Bool.noConfusion ht
      results := ⟨Nat.zero_le _, Nat.zero_le _⟩
      faultSet := h.faultSet }
    rfl rfl (by rintro (h | h) <;> cases h)

/-! The acceptance of a command -/

theorem State.Sound.accept {s : State} (h : s.Sound) : s.accept.Sound := { h with }

theorem State.Sound.buildAccept_legal {s : State} (h : s.Sound) (hf : s.FlagsClear) : s.buildAccept.Legal := by
  unfold State.buildAccept
  split
  · exact h.raise_legal _
  · rename_i ht
    refine State.Sound.legal_of_busy { h with } { hf with } nofun (fun c hc => ?_) nofun
    cases hc
    exact ⟨by simpa using ht, fun d hd => absurd hd (Nat.not_lt_zero _)⟩

theorem State.Sound.releaseAccept_legal {s : State} (h : s.Sound) (hf : s.FlagsClear) : s.releaseAccept.Legal :=
  State.Sound.complete_legal (s := { s with tableValid := false })
    { h with table := fun ht => Bool.noConfusion ht } { hf with } .none

theorem State.Sound.decodeChecks_legal {s : State} (h : s.Sound) (hf : s.FlagsClear) : s.decodeChecks.Legal := by
  obtain ⟨hin, _⟩ := Params.bounds_of_wellFormed h.params
  rcases s.decodeChecks_cases with
    ⟨_, hd⟩ | ⟨_, _, hd⟩ | ⟨_, _, _, hd⟩ | ⟨_, _, _, _, hd⟩ | ⟨ht, hle, hge, hcount, hd⟩ <;> rw [hd]
  · exact h.raise_legal _
  · exact h.raise_legal _
  · exact h.raise_legal _
  · exact State.Sound.raise_legal (s := { s with outCount := s.headerCount, consumed := 4 })
      { h with results := ⟨h.results.1, show 4 ≤ s.params.inSize by omega⟩ } _
  · refine State.Sound.legal_of_busy { h with } { hf with } nofun nofun fun _ => ?_
    exact {
      table := ht
      declared := ⟨hge, hle⟩
      owed := ⟨hcount, Nat.zero_add _⟩
      offset := ⟨le_refl 4, show 4 ≤ s.params.inSize by omega⟩
      midByte := fun hs => absurd rfl hs
      node := .inr (le_refl _) }

theorem State.Sound.decodeAccept_legal {s : State} (h : s.Sound) (hf : s.FlagsClear) : s.decodeAccept.Legal :=
  State.Sound.decodeChecks_legal { h with results := ⟨Nat.zero_le _, Nat.zero_le _⟩ } { hf with }

theorem State.Legal.submitWord {s t : State} (h : s.Legal) {w : Word} (ht : submitWord w s = .next t) : t.Legal := by
  have ha := h.sound.accept
  have hf := s.accept_flagsClear
  rcases submitWord_cases ht with ⟨_, rfl⟩ | ⟨_, ⟨_, rfl⟩ | ⟨_, rfl⟩ | ⟨_, rfl⟩ | ⟨_, rfl⟩⟩
  · exact h.hostOwn _ _ _ _ _ _ true
  · exact ha.buildAccept_legal hf
  · exact ha.decodeAccept_legal hf
  · exact ha.releaseAccept_legal hf
  · exact ha.raise_legal .badCmd

theorem State.Legal.hostTxn {s t : State} (h : s.Legal) {x : HostTxn} (ht : hostTxn x s = .next t) : t.Legal := by
  rcases hostTxn_cases ht with ⟨a, n, rfl⟩ | ⟨w, _, hw⟩ | ⟨v, rfl⟩ | ⟨v, rfl⟩ | rfl | ⟨a, n, v, hadm, rfl⟩ | ⟨f, rfl⟩
  · exact h.hostRead a n
  · exact h.submitWord hw
  · exact h.hostOwn _ _ _ _ _ v _
  · exact h.hostOwn _ _ _ _ _ _ _
  · exact h
  · exact h.writeBuffer (by rwa [leBytes_length])
  · exact h.recordFault f

/-! The block step of BUILD -/

/-- While no table is valid, the store of a context keeps what is sound. -/
theorem State.Sound.storeContext {s : State} (h : s.Sound) (ht : s.tableValid = false) (c : Byte) :
    (s.storeContext c).Sound :=
  { h with table := fun hv => by rw [State.storeContext_tableValid, ht] at hv; cases hv }

theorem State.Legal.buildStep {s : State} (h : s.Legal) {c : Byte} (hc : s.seq = .build c) :
    State.Legal { s.storeContext c with seq := .build (c + 1) } := by
  obtain ⟨ht, hbuilt⟩ := h.building c hc
  have hf := h.flagsClear (by simp [hc])
  refine State.Sound.legal_of_busy { h.sound.storeContext ht c with } { hf with } nofun (fun d hd => ?_) nofun
  cases hd
  refine ⟨ht, fun d hd => ?_⟩
  by_cases hdc : d = c
  · exact hdc ▸ s.storeContext_treeBuilt_self d
  · exact (hbuilt d (by bv_omega)).storeContext c

theorem State.Legal.buildComplete {s : State} (h : s.Legal) (hc : s.seq = .build 255) :
    (s.storeContext 255).buildComplete.Legal := by
  obtain ⟨ht, hbuilt⟩ := h.building 255 hc
  have hf := h.flagsClear (by simp [hc])
  have htable : ∀ d, (s.storeContext 255).TreeBuilt d := fun d => by
    by_cases hd : d = 255
    · exact hd ▸ s.storeContext_treeBuilt_self d
    · exact (hbuilt d (by bv_omega)).storeContext 255
  have hstored := h.sound.storeContext ht 255
  exact State.Sound.complete_legal
    (s := State.freeUnbuilt (State.freeScratch { s.storeContext 255 with tableValid := true }))
    { hstored with table := fun _ => htable } { hf with } .none

/-! The block step of DECODE -/

/-- A built context's child is numbered below its parent (40_build.md R119). -/
theorem State.TreeBuilt.childOf_lt {s : State} {c : Byte} (h : s.TreeBuilt c) {n : Node} (hn : 256 ≤ n.toNat)
    (hroot : n.toNat ≤ (s.rootOf c).toNat) (b : Bool) : (s.childOf c n b).toNat < n.toNat := by
  obtain ⟨_, hr, hbelow⟩ := h
  obtain ⟨k, hk⟩ := Nat.exists_eq_add_of_le hn
  have hlt : k < s.child[c.toNat].length := by omega
  have hpair : s.builtPair c n = some s.child[c.toNat][k] := by
    simp [State.builtPair, hk, hlt]
  obtain ⟨h1, h2⟩ := hbelow k hlt
  simp only [State.childOf, hpair, hk]
  cases b
  · exact h1
  · exact h2

/-- A walk that succeeds ends in a legal state; both diagnostics cannot hold (41_decode.md R152). -/
theorem State.Sound.walkFinish_legal {s : State} (h : s.Sound) (he : s.dp.e.toNat ≤ s.params.outSize)
    (ho : s.dp.off.toNat ≤ s.params.inSize) : s.walkFinish.Legal := by
  refine State.Sound.legal_of_idle { h with results := ⟨he, ho⟩ } rfl rfl fun _ => ⟨rfl, rfl, ?_⟩
  simp only [State.walkFinish_overread, State.walkFinish_underread, overreadFlag, underreadFlag, decide_eq_true_eq]
  omega

/-- A walk that ends with an error ends in a legal state. -/
theorem State.Sound.walkError_legal {s : State} (h : s.Sound) (he : s.dp.e.toNat ≤ s.params.outSize)
    (ho : s.dp.off.toNat ≤ s.params.inSize) (e : ErrCode) : (s.walkError e).Legal :=
  State.Sound.raise_legal (s := s.walkResults) { h with results := ⟨he, ho⟩ } e

/-- A walk in the middle of a pass: some bytes are owed and the pass's byte has been fetched (41_decode.md R145). -/
structure State.MidPass (s : State) : Prop where
  sound : s.Sound
  flags : s.FlagsClear
  seq : s.seq = .decode
  walking : s.Walking
  owes : s.dp.rem ≠ 0
  fetched : Config.hdr < s.dp.off.toNat

/-- The bit step of an internal node keeps a walk legal (41_decode.md R149, R150). -/
theorem State.MidPass.bitStep_legal {s : State} (h : s.MidPass) (hn : 256 ≤ s.dp.node.toNat) : s.bitStep.Legal := by
  have hw := h.walking
  have hroot : s.dp.node.toNat ≤ (s.rootOf s.dp.ctx).toNat := hw.node.resolve_left (Nat.not_lt.mpr hn)
  have hchild := (h.sound.table hw.table s.dp.ctx).childOf_lt hn hroot (slotBit s.dp.byte s.dp.slot)
  refine State.Sound.legal_of_busy { h.sound with } { h.flags with } (by simp [h.seq]) (by simp [h.seq]) fun _ => ?_
  exact { hw with midByte := fun _ => ⟨h.owes, h.fetched⟩, node := .inr (hchild.le.trans hroot) }

/-- What the emission of an owed byte does to the counts of a walk: nothing wraps (41_decode.md R155). -/
theorem State.MidPass.emit_counts {s : State} (h : s.MidPass) :
    s.dp.e.toNat < s.params.outSize ∧ (s.dp.e + 1).toNat = s.dp.e.toNat + 1 ∧
      (s.dp.rem - 1).toNat + 1 = s.dp.rem.toNat := by
  obtain ⟨_, _, _, hout⟩ := Params.bounds_of_wellFormed h.sound.params
  obtain ⟨hle, hsum⟩ := h.walking.owed
  have hrem := h.owes
  generalize s.params.outSize = m at *
  generalize s.outCount.toNat = n at *
  refine ⟨?_, ?_, ?_⟩ <;> bv_omega

/-- The emission of an owed byte keeps what is sound: the byte lies in OUT. -/
theorem State.MidPass.emitLeaf_sound {s : State} (h : s.MidPass) : s.emitLeaf.Sound := by
  obtain ⟨he, _, _⟩ := h.emit_counts
  refine { h.sound with memWf := Memory.wf_put _ _ h.sound.memWf, memWindow := fun cell hcell => ?_ }
  rcases Memory.mem_put hcell with rfl | hold
  · exact .inr ⟨Nat.le_add_right _ _, Nat.add_lt_add_left he _⟩
  · exact h.sound.memWindow cell hold

/-- After the emission of a byte that was not the last, the switched context's walk is in the middle of its pass. -/
theorem State.MidPass.switchContext {s : State} (h : s.MidPass) (hrem : s.dp.rem - 1 ≠ 0) :
    s.emitLeaf.switchContext.MidPass := by
  obtain ⟨_, he1, hr1⟩ := h.emit_counts
  have hw := h.walking
  have hsum := hw.owed.2
  refine ⟨{ h.emitLeaf_sound with }, { h.flags with }, h.seq, ?_, hrem, h.fetched⟩
  exact { hw with
    owed := ⟨hw.owed.1, show (s.dp.e + 1).toNat + (s.dp.rem - 1).toNat = s.outCount.toNat by omega⟩
    midByte := fun _ => ⟨hrem, h.fetched⟩
    node := .inr (le_refl _) }

/-- One bit slot keeps a walk legal or ends it legally (41_decode.md R145 to R149). -/
theorem State.MidPass.slotStep_legal {s : State} (h : s.MidPass) : s.slotStep.Legal := by
  obtain ⟨he, he1, _⟩ := h.emit_counts
  have hemitted : (s.dp.e + 1).toNat ≤ s.params.outSize := he1 ▸ he
  have hoff := h.walking.offset.2
  rcases s.slotStep_cases with ⟨hn, hs⟩ | ⟨_, _, hs⟩ | ⟨_, hrem, _, hs⟩ | ⟨_, hrem, hroot, hs⟩ <;> rw [hs]
  · exact h.bitStep_legal hn
  · exact h.emitLeaf_sound.walkFinish_legal hemitted hoff
  · exact (h.switchContext hrem).sound.walkError_legal hemitted hoff _
  · exact (h.switchContext hrem).bitStep_legal hroot

/-- The fetch of a pass brings the walk into the middle of it. -/
theorem State.Walking.fetchByte {s : State} (h : s.Walking) (hsound : s.Sound) (hflags : s.FlagsClear)
    (hseq : s.seq = .decode) (hrem : s.dp.rem ≠ 0) (hoff : s.dp.off.toNat < s.params.inSize) :
    s.fetchByte.MidPass := by
  obtain ⟨_, hin, _⟩ := Params.bounds_of_wellFormed hsound.params
  have hnext : (s.dp.off + 1).toNat = s.dp.off.toNat + 1 := by
    generalize s.params.inSize = m at *
    bv_omega
  have hfetched : Config.hdr < (s.dp.off + 1).toNat := hnext ▸ Nat.lt_succ_of_le h.offset.1
  refine ⟨{ hsound with }, { hflags with }, hseq, ?_, hrem, hfetched⟩
  exact { h with offset := ⟨hfetched.le, hnext ▸ hoff⟩, midByte := fun _ => ⟨hrem, hfetched⟩ }

theorem State.Legal.decodeStep {s : State} (h : s.Legal) (hseq : s.seq = .decode) : s.decodeStep.Legal := by
  have hw := h.walking hseq
  have hf := h.flagsClear (by simp [hseq])
  obtain ⟨hcount, hsum⟩ := hw.owed
  have he : s.dp.e.toNat ≤ s.params.outSize := by omega
  rcases s.decodeStep_cases with ⟨hslot, hd⟩ | ⟨_, _, hd⟩ | ⟨_, _, _, hd⟩ | ⟨_, hrem, hoff, hd⟩ <;> rw [hd]
  · obtain ⟨hrem, hoff⟩ := hw.midByte hslot
    exact State.MidPass.slotStep_legal ⟨h.sound, hf, hseq, hw, hrem, hoff⟩
  · exact h.sound.walkFinish_legal he hw.offset.2
  · exact h.sound.walkError_legal he hw.offset.2 _
  · exact (hw.fetchByte h.sound hf hseq hrem hoff).slotStep_legal

/-! Every step -/

theorem State.Legal.blockStep {s : State} (h : s.Legal) : s.blockStep.Legal := by
  rcases s.blockStep_cases with ⟨_, hb⟩ | ⟨c, hc, _, hb⟩ | ⟨hc, hb⟩ | ⟨hd, hb⟩ <;> rw [hb]
  · exact h
  · exact h.buildStep hc
  · exact h.buildComplete hc
  · exact h.decodeStep hd

/-- Settles O59: the host's events keep legality by their frames, a command's acceptance and completion by
`legal_of_idle` and `legal_of_busy`, and a block step by the bounds of BUILD's pairs and the walk invariant. -/
theorem stepKeepsLegal : Obligations.StepKeepsLegal := by
  intro s t h ht
  have hrest : ∀ rest, State.Legal { s with agenda := rest } := fun rest => h.hostOwn rest _ _ _ _ _ _
  rcases step_cases ht with ⟨_, rfl⟩ | ⟨rest, ⟨_, rfl⟩ | ⟨_, rfl⟩ | ⟨_, rfl⟩ | ⟨x, _, hx⟩⟩
  · exact h.blockStep
  · exact (hrest rest).blockStep
  · exact (hrest rest).poll
  · exact (hrest rest).platformReset
  · exact (hrest rest).hostTxn hx

end Sys2Proof.Machine
end

section
/-! SUPPORT. What a step does to the parameters and to the table (10_state.md R23, R45, R46; 20_memory.md R75), and what
a host transaction other than a CMD write leaves alone (10_state.md R49). -/

namespace Sys2Proof.Machine

/-! Command words -/

theorem encodeFields_of_decodeFields {c : Cmd32} {i : Instr} (h : decodeFields c = .ok i) : c = encodeFields i := by
  obtain ⟨op, rsv⟩ := c
  simp only [decodeFields] at h
  split_ifs at h with hrsv h1 h2 h3 <;> cases h <;> simp_all [encodeFields]

/-- A word's fields put together again are the word. -/
theorem word_cmdFields (w : Word) : (cmdFields w).word = w := by
  simp only [Cmd32.word, cmdFields]
  apply BitVec.eq_of_getLsbD_eq
  intro i hi
  rw [BitVec.getLsbD_append, BitVec.getLsbD_extractLsb', BitVec.getLsbD_extractLsb']
  by_cases h : i < 4
  · simp [h]
  · simp [h, show i - 4 < 28 by omega, show 4 + (i - 4) = i by omega]

/-- A word that decodes to a command is that command's word (30_encoding.md R91). -/
theorem eq_encode_of_decodeWord {w : Word} {i : Instr} (h : decodeWord w = .ok i) : w = encode i := by
  rw [encode, ← encodeFields_of_decodeFields h, word_cmdFields]

/-! The host's transactions -/

/-- A transaction other than a CMD write changes IN_LEN, TADDR, the buffers and the bookkeeping of races, faults and
reads at most. -/
theorem hostTxn_eq_of_not_cmd {x : HostTxn} {s t : State} (h : hostTxn x s = .next t) (hx : ∀ w, x ≠ .wr32 0x000 w) :
    t = { s with inLen := t.inLen, taddrCtx := t.taddrCtx, taddrNode := t.taddrNode, mem := t.mem, raced := t.raced,
                 faults := t.faults, reads := t.reads, draws := t.draws } := by
  rcases hostTxn_cases h with ⟨a, n, rfl⟩ | ⟨w, hw, _⟩ | ⟨v, rfl⟩ | ⟨v, rfl⟩ | rfl | ⟨a, n, v, _, rfl⟩ | ⟨f, rfl⟩
  · rw [State.hostRead_eq]
  · exact absurd hw (hx w)
  · rfl
  · rfl
  · rfl
  · rw [State.writeBuffer_eq]
  · rw [State.recordFault_eq]

/-- Settles O55: STATUS, the sequencer and TABLE_VALID are none of the fields such a transaction changes. -/
theorem onlyCommandWritesChangeFlags : Obligations.OnlyCommandWritesChangeFlags := by
  intro s t x rest hagenda hx ht
  rw [step_cons hagenda] at ht
  rw [hostTxn_eq_of_not_cmd ht hx]
  exact ⟨rfl, rfl, rfl⟩

/-! The table -/

/-- `t` has the parameters and the table of `s`. -/
structure State.KeepsTable (s t : State) : Prop where
  params : t.params = s.params
  tableValid : t.tableValid = s.tableValid
  child : t.child = s.child
  unbuilt : t.unbuilt = s.unbuilt
  root : t.root = s.root

theorem State.poll_keepsTable (s : State) : s.KeepsTable s.poll := by
  rw [State.poll_eq]
  split <;> exact ⟨rfl, rfl, rfl, rfl, rfl⟩

theorem State.slotStep_keepsTable (s : State) : s.KeepsTable s.slotStep := by
  rcases s.slotStep_cases with ⟨_, h⟩ | ⟨_, _, h⟩ | ⟨_, _, _, h⟩ | ⟨_, _, _, h⟩ <;> rw [h] <;>
    constructor <;> simp

theorem State.decodeStep_keepsTable (s : State) : s.KeepsTable s.decodeStep := by
  rcases s.decodeStep_cases with ⟨_, h⟩ | ⟨_, _, h⟩ | ⟨_, _, _, h⟩ | ⟨_, _, _, h⟩ <;> rw [h]
  · exact s.slotStep_keepsTable
  · exact ⟨rfl, rfl, rfl, rfl, rfl⟩
  · exact ⟨rfl, rfl, rfl, rfl, rfl⟩
  · exact { s.fetchByte.slotStep_keepsTable with }

theorem State.buildAccept_keepsTable (s : State) : s.KeepsTable s.buildAccept := by
  unfold State.buildAccept
  split <;> exact ⟨rfl, rfl, rfl, rfl, rfl⟩

theorem State.decodeAccept_keepsTable (s : State) : s.KeepsTable s.decodeAccept := by
  unfold State.decodeAccept
  rcases State.decodeChecks_cases { s with inLenL := s.inLen, outCount := 0, outLen := 0, consumed := 0 } with
    ⟨_, h⟩ | ⟨_, _, h⟩ | ⟨_, _, _, h⟩ | ⟨_, _, _, _, h⟩ | ⟨_, _, _, _, h⟩ <;> rw [h] <;>
    exact ⟨rfl, rfl, rfl, rfl, rfl⟩

/-- A word written to CMD keeps the table, or it is RELEASE's, accepted while BUSY = 0. -/
theorem submitWord_table_cases {w : Word} {s t : State} (h : submitWord w s = .next t) :
    s.KeepsTable t ∨ (s.busy = false ∧ w = encode .release ∧ t = s.accept.releaseAccept) := by
  rcases submitWord_cases h with ⟨_, rfl⟩ | ⟨hb, ⟨_, rfl⟩ | ⟨_, rfl⟩ | ⟨hw, rfl⟩ | ⟨_, rfl⟩⟩
  · exact .inl ⟨rfl, rfl, rfl, rfl, rfl⟩
  · exact .inl { s.accept.buildAccept_keepsTable with }
  · exact .inl { s.accept.decodeAccept_keepsTable with }
  · exact .inr ⟨hb, eq_encode_of_decodeWord hw, rfl⟩
  · exact .inl ⟨rfl, rfl, rfl, rfl, rfl⟩

/-- It is the block's turn: the agenda is empty or a block step is next on it. -/
def State.BlockTurn (s : State) : Prop := s.agenda = [] ∨ s.agenda.head? = some .block

/-- What a step from `s` to `t` can do to the parameters and to the table. -/
inductive State.TableStep (s t : State) : Prop where
  | kept (keeps : s.KeepsTable t)
  | reset (head : s.agenda.head? = some .reset) (params : t.params = s.params) (tableValid : t.tableValid = false)
  | release (head : s.agenda.head? = some (submitEvent (encode .release))) (idle : s.busy = false)
      (keeps : State.KeepsTable { s with tableValid := false } t)
  | build (c : Byte) (seq : s.seq = .build c) (params : t.params = s.params) (tableValid : t.tableValid = s.tableValid)
  | built (turn : s.BlockTurn) (seq : s.seq = .build 255) (params : t.params = s.params) (idle : t.seq = .idle)
      (tableValid : t.tableValid = true)

/-- A block step at the block's turn. -/
theorem State.blockStep_tableStep {s : State} (turn : s.BlockTurn) (rest : List Event) :
    s.TableStep (State.blockStep { s with agenda := rest }) := by
  rcases State.blockStep_cases { s with agenda := rest } with ⟨_, h⟩ | ⟨c, hc, _, h⟩ | ⟨hc, h⟩ | ⟨_, h⟩ <;> rw [h]
  · exact .kept ⟨rfl, rfl, rfl, rfl, rfl⟩
  · exact .build c hc rfl rfl
  · exact .built turn hc rfl rfl rfl
  · exact .kept { State.decodeStep_keepsTable { s with agenda := rest } with }

/-- Everything a step can do to the parameters and to the table. -/
theorem step_tableStep {s t : State} (h : step s = .next t) : s.TableStep t := by
  rcases step_cases h with ⟨ha, rfl⟩ | ⟨rest, ⟨ha, rfl⟩ | ⟨ha, rfl⟩ | ⟨ha, rfl⟩ | ⟨x, ha, hx⟩⟩
  · exact State.blockStep_tableStep (.inl ha) s.agenda
  · exact State.blockStep_tableStep (.inr (by rw [ha]; rfl)) rest
  · exact .kept { State.poll_keepsTable { s with agenda := rest } with }
  · exact .reset (by rw [ha]; rfl) rfl rfl
  · by_cases hcmd : ∃ w, x = .wr32 0x000 w
    · obtain ⟨w, rfl⟩ := hcmd
      rw [show hostTxn (.wr32 0x000 w) _ = submitWord w _ from runEvent_submitEvent w _] at hx
      rcases submitWord_table_cases hx with hk | ⟨hb, rfl, rfl⟩
      · exact .kept { hk with }
      · exact .release (by rw [ha]; rfl) hb ⟨rfl, rfl, rfl, rfl, rfl⟩
    · rw [hostTxn_eq_of_not_cmd hx fun w hw => hcmd ⟨w, hw⟩]
      exact .kept ⟨rfl, rfl, rfl, rfl, rfl⟩

/-- Settles O56. -/
theorem parametersAreConstant : Obligations.ParametersAreConstant := by
  intro s t h
  cases step_tableStep h with
  | kept keeps => exact keeps.params
  | reset _ params => exact params
  | release _ _ keeps => exact keeps.params
  | build _ _ params => exact params
  | built _ _ params => exact params

/-- Settles O52: of the kinds of `State.TableStep` only the last context of a BUILD can set TABLE_VALID, and only a
reset and an accepted RELEASE can clear it. -/
theorem tableValidWriters : Obligations.TableValidWriters := by
  intro s t h
  have unchanged : t.tableValid = s.tableValid → ∀ {P Q : Prop},
      (s.tableValid = false → t.tableValid = true → P) ∧ (s.tableValid = true → t.tableValid = false → Q) := by
    intro heq P Q
    exact ⟨fun hs ht => by simp [heq, hs] at ht, fun hs ht => by simp [heq, hs] at ht⟩
  cases step_tableStep h with
  | kept keeps => exact unchanged keeps.tableValid
  | build _ _ _ tableValid => exact unchanged tableValid
  | reset head _ tableValid => exact ⟨fun _ ht => by simp [tableValid] at ht, fun _ _ => .inl head⟩
  | release head idle keeps => exact ⟨fun _ ht => by simp [keeps.tableValid] at ht, fun _ _ => .inr ⟨idle, head⟩⟩
  | built turn seq _ idle tableValid => exact ⟨fun _ _ => ⟨seq, idle, turn⟩, fun _ ht => by simp [tableValid] at ht⟩

/-- Settles O53: a legal state with a valid table is in no BUILD, so a step that is no reset keeps CHILD and ROOT. -/
theorem validTableIsImmutable : Obligations.ValidTableIsImmutable := by
  intro s t hlegal hvalid hhead h
  have table : t.child = s.child → t.unbuilt = s.unbuilt → t.root = s.root →
      t.child = s.child ∧ t.unbuilt = s.unbuilt ∧ t.root = s.root ∧ ∀ c n b, t.childOf c n b = s.childOf c n b :=
    fun hc hu hr => ⟨hc, hu, hr, State.childOf_congr hc hu⟩
  have noBuild : ∀ c, s.seq ≠ .build c := fun c hc => by
    rw [(hlegal.building c hc).1] at hvalid
    cases hvalid
  cases step_tableStep h with
  | kept keeps => exact table keeps.child keeps.unbuilt keeps.root
  | reset head => exact absurd head hhead
  | release _ _ keeps => exact table keeps.child keeps.unbuilt keeps.root
  | build c seq => exact absurd seq (noBuild c)
  | built _ seq => exact absurd seq (noBuild 255)

end Sys2Proof.Machine
end

section
/-! SUPPORT. What the host reads from the registers: STATUS bit by bit, and a 32-bit read of each register
(10_state.md R30 to R47, 42_control.md R175). -/

namespace Sys2Proof.Machine

/-! STATUS -/

theorem flagBit_getLsbD (b : Bool) (k : Nat) {i : Nat} (hi : i < 32) :
    (flagBit b k).getLsbD i = (b && decide (i = k)) := by
  cases b with
  | false => simp [flagBit]
  | true =>
    simp only [flagBit, if_true, BitVec.getLsbD_shiftLeft, hi, decide_true, Bool.true_and, BitVec.getLsbD_one]
    by_cases h : i = k
    · simp [h]
    · simp [h]; omega

/-- A bit of STATUS is a flag's or, from bit 8 on, the error code's (10_state.md R30). -/
theorem State.statusWord_getLsbD (s : State) {i : Nat} (hi : i < 32) :
    s.statusWord.getLsbD i =
      ((s.busy && decide (i = 0)) || (s.done && decide (i = 1)) || (s.tableValid && decide (i = 2)) ||
        (s.overread && decide (i = 3)) || (s.underread && decide (i = 4)) || (s.dropped && decide (i = 5)) ||
        (decide (8 ≤ i) && s.err.code.getLsbD (i - 8))) := by
  have hcode : i - 8 < 32 := by omega
  simp only [State.statusWord, BitVec.getLsbD_or, flagBit_getLsbD _ _ hi, BitVec.getLsbD_shiftLeft,
    BitVec.getLsbD_setWidth, hi, hcode, decide_true, Bool.true_and, ← not_lt, decide_not]

theorem State.statusWord_getLsbD_of_ge (s : State) {i : Nat} (hi : i < 32) (h8 : 8 ≤ i) :
    s.statusWord.getLsbD i = s.err.code.getLsbD (i - 8) := by
  have hflags : ∀ k < 6, decide (i = k) = false := fun k hk => by simp; omega
  simp [s.statusWord_getLsbD hi, hflags, h8]

theorem State.statusWord_err (s : State) : s.statusWord.extractLsb' 8 4 = s.err.code := by
  apply BitVec.eq_of_getLsbD_eq
  intro i hi
  rw [BitVec.getLsbD_extractLsb', s.statusWord_getLsbD_of_ge (by omega) (by omega), Nat.add_sub_cancel_left]
  simp [hi]

/-- Bits 7:6 of STATUS are 0: they lie between the flags and the error code. -/
theorem State.statusWord_reserved_low (s : State) : s.statusWord.extractLsb' 6 2 = 0 := by
  apply BitVec.eq_of_getLsbD_eq
  intro i hi
  rw [BitVec.getLsbD_extractLsb', s.statusWord_getLsbD (by omega)]
  have hflags : ∀ k < 6, decide (6 + i = k) = false := fun k hk => by simp; omega
  simp [hflags, show ¬ 8 ≤ 6 + i by omega]

/-- Bits 31:12 of STATUS are 0: the error code has four bits. -/
theorem State.statusWord_reserved_high (s : State) : s.statusWord.extractLsb' 12 20 = 0 := by
  apply BitVec.eq_of_getLsbD_eq
  intro i hi
  rw [BitVec.getLsbD_extractLsb', s.statusWord_getLsbD_of_ge (by omega) (by omega),
    BitVec.getLsbD_of_ge s.err.code _ (by omega)]
  simp

/-- Settles O43. -/
theorem statusWordFields : Obligations.StatusWordFields := by
  intro s
  refine ⟨?_, ?_, ?_, ?_, ?_, ?_, s.statusWord_err, s.statusWord_reserved_low, s.statusWord_reserved_high, ?_⟩
  iterate 6
    rw [s.statusWord_getLsbD (by decide)]
    simp
  rw [s.statusWord_err]
  cases s.err <;> simp [ErrCode.code]

/-! Register reads -/

/-- A 32-bit read of a register gives the host the register's value. -/
theorem step_rd32_register {s : State} {a : Offset} {rest : List Event} (h : s.agenda = .host (.rd32 a) :: rest)
    (h0 : a.toNat % 4 = 0) (h1 : a.toNat + 4 ≤ 0x100) :
    ∃ u, step s = .next u ∧ u.reads = { a := a, n := 4, data := s.readRegister a.toNat } :: s.reads := by
  refine ⟨State.hostRead { s with agenda := rest } a 4, by rw [step_cons h]; rfl, ?_⟩
  rw [State.hostRead_register _ h0 h1]
  rfl

/-- A value that is exact while BUSY = 0 is read then. -/
theorem State.unlessBusy_of_idle {s : State} (h : s.busy = false) (v : Word) : s.unlessBusy v = v := by
  simp [State.unlessBusy, h]

/-- The reserved words past CFG_OUT_SIZE read 0 (10_state.md R47). -/
theorem State.readRegister_reserved (s : State) {a : Nat} (h : 0x02C ≤ a) : s.readRegister a = 0 := by
  unfold State.readRegister
  repeat rw [if_neg (by omega)]

/-- Settles O41. -/
theorem exactRegisterReads : Obligations.ExactRegisterReads := by
  intro s a rest h d hd
  rcases hd with ⟨rfl, rfl⟩ | ⟨rfl, rfl⟩ | ⟨rfl, rfl⟩ | ⟨rfl, rfl⟩ | ⟨rfl, rfl⟩ | ⟨rfl, rfl⟩ | ⟨hlo, hhi, h4, rfl⟩
  iterate 6 exact step_rd32_register h (by decide) (by decide)
  rw [← s.readRegister_reserved hlo]
  exact step_rd32_register h h4 (by omega)

/-- Settles O42. -/
theorem resultRegisterReadsWhileIdle : Obligations.ResultRegisterReadsWhileIdle := by
  intro s a rest h hb d hd
  rw [← State.unlessBusy_of_idle hb d]
  rcases hd with ⟨rfl, rfl⟩ | ⟨rfl, rfl⟩ | ⟨rfl, rfl⟩ <;>
    exact step_rd32_register h (by decide) (by decide)

/-! The table as the host reads it -/

theorem State.trootWord_of_valid {s : State} (h : s.tableValid = true) :
    s.trootWord = (s.rootOf s.taddrCtx).setWidth 32 := by
  rw [State.trootWord, if_pos h]

/-- TDATA reads 0 for a leaf number and for 511 (10_state.md R43). -/
theorem State.tdataWord_of_leaf {s : State} (h : s.tableValid = true)
    (hn : s.taddrNode.toNat < 256 ∨ s.taddrNode.toNat = 511) : s.tdataWord = 0 := by
  rw [State.tdataWord, if_neg (by simp [h]), if_pos hn]

/-- TDATA reads the pair of a built node (10_state.md R43). -/
theorem State.tdataWord_of_built {s : State} (h : s.tableValid = true) (h256 : 256 ≤ s.taddrNode.toNat)
    (h511 : s.taddrNode.toNat ≠ 511) (hroot : s.taddrNode.toNat ≤ (s.rootOf s.taddrCtx).toNat) {p : Node × Node}
    (hp : s.child[s.taddrCtx.toNat][s.taddrNode.toNat - 256]? = some p) :
    s.tdataWord = (p.2.setWidth 32 <<< 16) ||| p.1.setWidth 32 := by
  have hpair : s.builtPair s.taddrCtx s.taddrNode = some p := (if_neg (Nat.not_lt.mpr h256)).trans hp
  rw [State.tdataWord, if_neg (by simp [h]), if_neg (by simp only [Config.nsym, Config.maxNodes]; omega), if_pos hroot,
    State.childOf, State.childOf, hpair]
  rfl

/-- Settles O44. -/
theorem tableReadback : Obligations.TableReadback := by
  intro s rest hb hvalid
  refine ⟨fun h => ?_, fun h hn => ?_, fun p h h256 h511 hroot hp => ?_⟩
  · rw [← State.rootOf, ← State.trootWord_of_valid hvalid, ← State.unlessBusy_of_idle hb s.trootWord]
    exact step_rd32_register h (by decide) (by decide)
  · rw [← State.tdataWord_of_leaf hvalid hn, ← State.unlessBusy_of_idle hb s.tdataWord]
    exact step_rd32_register h (by decide) (by decide)
  · rw [← State.tdataWord_of_built hvalid h256 h511 hroot hp, ← State.unlessBusy_of_idle hb s.tdataWord]
    exact step_rd32_register h (by decide) (by decide)

end Sys2Proof.Machine
end

section
/-! SUPPORT. BUILD's block steps: what one of them does to its context (10_state.md R27, 70_reset_and_hazards.md R236),
and the run from BUILD(0) to a valid table (40_build.md R110, R118). -/

namespace Sys2Proof.Machine

/-! One block step -/

/-- The block step of a context before the last. -/
theorem State.blockStep_of_build {s : State} {c : Byte} (h : s.seq = .build c) (hne : c ≠ 255) :
    s.blockStep = { s.storeContext c with seq := .build (c + 1) } := by
  simp only [State.blockStep, h, State.buildStep, if_neg hne]

/-- The block step of the last context. -/
theorem State.blockStep_of_build_last {s : State} (h : s.seq = .build 255) :
    s.blockStep = (s.storeContext 255).buildComplete := by
  simp only [State.blockStep, h, State.buildStep, if_pos]

/-- BUILD's block step leaves in the table what the store of its context puts there. -/
theorem State.blockStep_build_table {s : State} {c : Byte} (h : s.seq = .build c) :
    s.blockStep.child = (s.storeContext c).child ∧ s.blockStep.root = (s.storeContext c).root := by
  by_cases hc : c = 255
  · subst hc
    rw [State.blockStep_of_build_last h]
    exact ⟨rfl, rfl⟩
  · rw [State.blockStep_of_build h hc]
    exact ⟨rfl, rfl⟩

theorem State.frequencyRow_getElem? (s : State) (c : Nat) {j : Nat} (hj : j < 256) :
    (s.frequencyRow c)[j]? = some (s.frequency c j) := by
  simp [State.frequencyRow_eq, hj]

/-- A count the host did not race is IN's byte (30_encoding.md R93). -/
theorem State.frequency_of_not_raced {s : State} {c j : Nat} (h : inAddr (256 * c + j) ∉ s.raced) :
    s.frequency c j = s.readByte (inAddr (256 * c + j)) := if_neg h

/-- A count the host raced is an entry of the step's draw (70_reset_and_hazards.md R236). -/
theorem State.frequency_of_raced {s : State} {c j : Nat} (h : inAddr (256 * c + j) ∈ s.raced) :
    s.frequency c j = drawEntry 8 s.draws j := if_pos h

/-- Settles O11: the row is `State.frequencyRow`, and the table is the one `State.storeContext` leaves. -/
theorem buildStepBuildsItsContext : Obligations.BuildStepBuildsItsContext := by
  intro s c h
  obtain ⟨hchild, hroot⟩ := State.blockStep_build_table h
  have hrootOf : ∀ d, s.blockStep.rootOf d = (s.storeContext c).rootOf d := fun d => by
    simp only [State.rootOf, hroot]
  refine ⟨⟨s.frequencyRow c.toNat, s.frequencyRow_length _, ?_, ?_,
      fun j hj => ⟨fun hr => ?_, fun hr => ⟨s.draws, ?_⟩⟩⟩,
    fun d hd => ⟨?_, ?_⟩, fun hc => ?_, fun hc => ?_⟩
  · simp only [hchild, State.storeContext_child_self]
  · rw [hrootOf, State.storeContext_rootOf_self]
  · rw [s.frequencyRow_getElem? _ hj, State.frequency_of_not_raced hr]
  · rw [s.frequencyRow_getElem? _ hj, State.frequency_of_raced hr]
  · simp only [hchild, s.storeContext_child_ne hd]
  · rw [hrootOf, s.storeContext_rootOf_ne hd]
  · rw [State.blockStep_of_build h hc]
    exact ⟨rfl, rfl, rfl, rfl, rfl, rfl⟩
  · rw [State.blockStep_of_build_last (hc ▸ h)]
    exact ⟨rfl, rfl, rfl, rfl⟩

/-! The run from BUILD(0) -/

/-- Context `c` of `u` holds the pairs and the root built from `t`'s frequency row. -/
def State.ContextFrom (t u : State) (c : Byte) : Prop :=
  u.child[c.toNat] = (buildContext (t.frequencyRow c.toNat)).pairs ∧
    u.rootOf c = BitVec.ofNat 9 ((buildContext (t.frequencyRow c.toNat)).numNodes - 1)

/-- With no byte raced, a row of the frequency image depends on memory and the reset count alone. -/
theorem State.frequencyRow_congr {t u : State} (ht : t.raced = []) (hu : u.raced = []) (hm : u.mem = t.mem)
    (hg : u.gen = t.gen) (c : Nat) : u.frequencyRow c = t.frequencyRow c := by
  rw [State.frequencyRow_of_raced_nil ht, State.frequencyRow_of_raced_nil hu]
  simp only [State.readByte_congr hm hg]

/-- The store of one more context from the same image. -/
theorem State.contextFrom_storeContext {t u : State} {n : Nat} {c : Byte} (hc : c.toNat = n)
    (hrow : u.frequencyRow c.toNat = t.frequencyRow c.toNat) (h : ∀ d : Byte, d.toNat < n → t.ContextFrom u d)
    {d : Byte} (hd : d.toNat < n + 1) : t.ContextFrom (u.storeContext c) d := by
  by_cases hdc : d = c
  · subst hdc
    exact ⟨by rw [State.storeContext_child_self, hrow], by rw [State.storeContext_rootOf_self, hrow]⟩
  · obtain ⟨hchild, hroot⟩ := h d (by have := mt BitVec.eq_of_toNat_eq hdc; omega)
    exact ⟨by rw [State.storeContext_child_ne _ hdc, hchild], by rw [State.storeContext_rootOf_ne _ hdc, hroot]⟩

/-- `u` is what BUILD makes of `t` by the time it enters BUILD(n): the contexts below n are built from `t`'s frequency
image, and beyond the table, the scratch and the draw counter only the sequencer moved. -/
structure State.BuiltUpTo (t u : State) (n : Nat) : Prop where
  frame : u = { t with seq := .build (BitVec.ofNat 8 n), child := u.child, root := u.root, scratch := u.scratch,
                       draws := u.draws }
  contexts : ∀ c : Byte, c.toNat < n → t.ContextFrom u c

/-- Whatever context a partly built state stores, its row is the start's. -/
theorem State.BuiltUpTo.frequencyRow {t u : State} {n : Nat} (h : t.BuiltUpTo u n) (hraced : t.raced = []) (c : Nat) :
    u.frequencyRow c = t.frequencyRow c := by
  have hf := h.frame
  exact State.frequencyRow_congr hraced (by rw [hf, hraced]) (by rw [hf]) (by rw [hf]) c

theorem State.BuiltUpTo.seq {t u : State} {n : Nat} (h : t.BuiltUpTo u n) : u.seq = .build (BitVec.ofNat 8 n) := by
  rw [h.frame]

/-- The store of a context keeps the frame. -/
theorem State.BuiltUpTo.storeContext_frame {t u : State} {n : Nat} (h : t.BuiltUpTo u n) (c : Byte) :
    u.storeContext c =
      { t with seq := .build (BitVec.ofNat 8 n), child := (u.storeContext c).child, root := (u.storeContext c).root,
               scratch := (u.storeContext c).scratch, draws := (u.storeContext c).draws } := by
  obtain ⟨hframe, _⟩ := h
  generalize u.child = child, u.root = root, u.scratch = scratch, u.draws = draws at hframe
  subst hframe
  rfl

/-- A block step builds the next context. -/
theorem State.BuiltUpTo.blockStep {t u : State} {n : Nat} (h : t.BuiltUpTo u n) (hraced : t.raced = [])
    (hn : n + 1 < 256) : t.BuiltUpTo u.blockStep (n + 1) := by
  have hc : (BitVec.ofNat 8 n).toNat = n := by simp; omega
  have hne : BitVec.ofNat 8 n ≠ 255 := fun he => by rw [he] at hc; simp at hc; omega
  rw [State.blockStep_of_build h.seq hne]
  rw [show BitVec.ofNat 8 n + 1 = BitVec.ofNat 8 (n + 1) by rw [BitVec.ofNat_add]; rfl]
  exact {
    frame := congrArg (fun v : State => { v with seq := .build (BitVec.ofNat 8 (n + 1)) }) (h.storeContext_frame _)
    contexts := fun _ => State.contextFrom_storeContext hc (h.frequencyRow hraced _) h.contexts }

/-- From BUILD(0), `n` block steps lead to BUILD(n). -/
theorem State.builtUpTo_runBlock {t : State} (hseq : t.seq = .build 0) (hraced : t.raced = []) {n : Nat}
    (hn : n < 256) : t.BuiltUpTo (runBlock n t) n := by
  induction n with
  | zero =>
    rw [runBlock_zero]
    refine ⟨?_, fun c hc => absurd hc (Nat.not_lt_zero _)⟩
    show t = { t with seq := .build 0 }
    rw [← hseq]
  | succ n ih =>
    rw [runBlock_succ_last]
    exact (ih (by omega)).blockStep hraced hn

/-- The 256th block step from BUILD(0) completes: every context is built from the frequency image, and beyond the table,
the scratch, the datapath and the draw counter only the completion's fields changed (40_build.md R118). -/
theorem runBlock_build_complete {t : State} (hseq : t.seq = .build 0) (hraced : t.raced = []) :
    ∃ u : State, (∀ c, t.ContextFrom u c) ∧
      runBlock 256 t = { t with seq := .idle, tableValid := true, done := true, err := .none, raced := [],
                                dp := u.dp, child := u.child, unbuilt := u.unbuilt, root := u.root,
                                scratch := u.scratch, draws := u.draws } := by
  have h := State.builtUpTo_runBlock hseq hraced (show 255 < 256 by decide)
  rw [show 256 = 255 + 1 from rfl, runBlock_succ_last, State.blockStep_of_build_last h.seq]
  refine ⟨((runBlock 255 t).storeContext 255).buildComplete, fun c => ?_, ?_⟩
  · exact State.contextFrom_storeContext (c := 255) rfl (h.frequencyRow hraced _) h.contexts c.isLt
  · exact congrArg State.buildComplete (h.storeContext_frame 255)

/-- BUILD accepted without a table enters BUILD(0) (40_build.md R110). -/
theorem exec_build_of_idle {s : State} (hb : s.busy = false) (ht : s.tableValid = false) :
    exec .build s = .next { s.accept with seq := .build 0 } := by
  simp only [exec, execBuild, State.submit_of_idle hb, State.buildAccept, State.accept_tableValid, ht,
    Bool.false_eq_true, if_false]

/-- Settles O10: 255 block steps, each building its context from the image of the start, and the completing one. -/
theorem buildRunsToAValidTable : Obligations.BuildRunsToAValidTable := by
  intro s hb ht
  refine ⟨_, exec_build_of_idle hb ht, fun n hn => ?_, ?_⟩
  · have h := State.builtUpTo_runBlock (t := { s.accept with seq := .build 0 }) rfl rfl hn
    exact ⟨h.seq, by rw [h.frame]; exact ht⟩
  · obtain ⟨u, hctx, hrun⟩ := runBlock_build_complete (t := { s.accept with seq := .build 0 }) rfl rfl
    have hrow : ∀ c, State.frequencyRow { s.accept with seq := .build 0 } c =
        (List.range 256).map fun j => s.readByte (inAddr (256 * c + j)) :=
      fun c => State.frequencyRow_of_raced_nil rfl c
    rw [hrun]
    refine ⟨rfl, rfl, rfl, rfl, rfl, rfl, rfl, fun c => ?_, rfl, fun _ => rfl, rfl,
      rfl, rfl, rfl, rfl, rfl, rfl, rfl, rfl⟩
    rw [← hrow]
    exact hctx c

end Sys2Proof.Machine
end

section
/-! SUPPORT. The host's accesses: which are admitted (20_memory.md R61, R66 to R68), what an access that is not admitted
does (R67), and what reads and writes of IN and OUT carry (R62 to R64, R70; 42_control.md R176). -/

namespace Sys2Proof.Machine

/-! Admission: what `regionOf` answers, branch by branch -/

theorem regionOf_eq_registers_iff {p : Params} {a n : Nat} :
    regionOf p a n = some .registers ↔ a % n = 0 ∧ a + n ≤ 0x100 ∧ n = 4 := by
  simp only [regionOf, Config.regEnd]
  split_ifs <;> simp <;> omega

theorem regionOf_eq_inBuf_iff {p : Params} {a n : Nat} :
    regionOf p a n = some .inBuf ↔ a % n = 0 ∧ 0x100000 ≤ a ∧ a + n ≤ 0x100000 + p.inSize := by
  simp only [regionOf, Config.regEnd, Config.inBase]
  split_ifs <;> simp <;> omega

/-- IN lies below OUT because IN_SIZE is at most 2^20 (00_scope.md R6). -/
theorem regionOf_eq_outBuf_iff {p : Params} {a n : Nat} (hp : p.wellFormed = true) (hn : 0 < n) :
    regionOf p a n = some .outBuf ↔ a % n = 0 ∧ 0x200000 ≤ a ∧ a + n ≤ 0x200000 + p.outSize := by
  have hin := Params.bounds_of_wellFormed hp
  simp only [regionOf, Config.regEnd, Config.inBase, Config.outBase]
  split_ifs <;> simp <;> omega

/-- Settles O38. -/
theorem admittedAccessesAreAlignedAndInside : Obligations.AdmittedAccessesAreAlignedAndInside := by
  intro p a n hp hn
  exact ⟨regionOf_eq_registers_iff, regionOf_eq_inBuf_iff, regionOf_eq_outBuf_iff hp (by omega)⟩

/-- A narrow access that is admitted goes to IN or OUT (20_memory.md R68). -/
theorem regionOf_buffer_of_narrow {p : Params} {a n : Nat} (hn : n ≠ 4) (h : (regionOf p a n).isSome) :
    regionOf p a n = some .inBuf ∨ regionOf p a n = some .outBuf := by
  obtain ⟨r, hr⟩ := Option.isSome_iff_exists.mp h
  cases r with
  | registers =>
    obtain ⟨_, _, hfour⟩ := regionOf_eq_registers_iff.mp hr
    exact absurd hfour hn
  | inBuf => exact .inl hr
  | outBuf => exact .inr hr

/-! One access, by the region it is admitted to -/

theorem step_host {s : State} {t : HostTxn} {rest : List Event} (h : s.agenda = .host t :: rest) :
    step s = hostTxn t { s with agenda := rest } := step_cons h

theorem State.hostRead_of_none (s : State) {a : Offset} {n : Nat} (h : regionOf s.params a.toNat n = none) :
    s.hostRead a n = s.recordFault (.busError a n) := by
  rw [State.hostRead, h]

theorem hostWrite_of_none (s : State) {a : Offset} {n : Nat} (v : Word) (h : regionOf s.params a.toNat n = none) :
    hostWrite a n v s = .next (s.recordFault (.busError a n)) := by
  rw [hostWrite, h]

/-- An admitted read gives the host one value and leaves the block alone (20_memory.md R70). -/
theorem State.hostRead_of_admitted (s : State) {a : Offset} {n : Nat} (h : regionOf s.params a.toNat n ≠ none) :
    ∃ d, s.hostRead a n = s.returnData a n d := by
  unfold State.hostRead
  split
  · exact ⟨_, rfl⟩
  · exact ⟨_, rfl⟩
  · exact ⟨_, rfl⟩
  · next hnone => exact absurd hnone h

theorem State.hostRead_buffer (s : State) {a : Offset} {n : Nat}
    (h : regionOf s.params a.toNat n = some .inBuf ∨ regionOf s.params a.toNat n = some .outBuf) :
    s.hostRead a n = s.returnData a n (s.readBuffer a.toNat n) := by
  rcases h with h | h <;> rw [State.hostRead, h]

theorem hostWrite_buffer (s : State) {a : Offset} {n : Nat} (v : Word)
    (h : regionOf s.params a.toNat n = some .inBuf ∨ regionOf s.params a.toNat n = some .outBuf) :
    hostWrite a n v s = .next (s.writeBuffer a (leBytes n v)) := by
  rcases h with h | h <;> rw [hostWrite, h]

/-! Bus errors and reads -/

/-- Settles O39: a read and a write that are not admitted both end in `State.recordFault`, which keeps all but the fault
set. -/
theorem busErrorHasNoEffect : Obligations.BusErrorHasNoEffect := by
  intro s a rest t n ht hagenda hnone
  have htxn : step s = .next (State.recordFault { s with agenda := rest } (.busError a n)) := by
    rw [step_host hagenda]
    rcases ht with ⟨rfl, rfl⟩ | ⟨rfl, rfl⟩ | ⟨rfl, rfl⟩ | ⟨v, rfl, rfl⟩ | ⟨v, rfl, rfl⟩ | ⟨v, rfl, rfl⟩
    iterate 3 exact congrArg Host.Outcome.next (State.hostRead_of_none { s with agenda := rest } hnone)
    iterate 3 exact hostWrite_of_none { s with agenda := rest } _ hnone
  exact ⟨_, htxn, State.mem_recordFault_self _ _, fun f hf => State.mem_recordFault_of_mem hf,
    State.recordFault_eq _ _⟩

/-- Settles O40. -/
theorem readsHaveNoSideEffect : Obligations.ReadsHaveNoSideEffect := by
  intro s a t n rest ht hagenda
  have htxn : step s = .next (State.hostRead { s with agenda := rest } a n) := by
    rw [step_host hagenda]
    rcases ht with ⟨rfl, rfl⟩ | ⟨rfl, rfl⟩ | ⟨rfl, rfl⟩ <;> rfl
  refine ⟨_, htxn, State.hostRead_eq _ a n, fun hadm => ?_, fun hnone => ?_⟩
  · obtain ⟨d, hd⟩ := State.hostRead_of_admitted { s with agenda := rest } hadm
    rw [hd]
    exact ⟨rfl, d, rfl⟩
  · rw [State.hostRead_of_none { s with agenda := rest } hnone, State.recordFault_eq]
    exact ⟨rfl, rfl⟩

/-! Little-endian values in memory -/

/-- The low half of a word, zero-extended. -/
theorem setWidth_16_setWidth_32 (v : Word) : (v.setWidth 16).setWidth 32 = v &&& 0xFFFF#32 := by
  apply BitVec.eq_of_toNat_eq
  simp only [BitVec.toNat_setWidth, BitVec.toNat_and, BitVec.toNat_ofNat]
  rw [show 0xFFFF % 2 ^ 32 = 2 ^ 16 - 1 by decide, Nat.and_two_pow_sub_one_eq_mod]
  omega

/-- The high half of a word, zero-extended. -/
theorem ushiftRight_16_setWidth_16_setWidth_32 (v : Word) : ((v >>> 16).setWidth 16).setWidth 32 = v >>> 16 := by
  apply BitVec.eq_of_toNat_eq
  simp only [BitVec.toNat_setWidth, BitVec.toNat_ushiftRight, Nat.shiftRight_eq_div_pow]
  omega

/-- Bit `k` of the `n` bytes at `a` is bit `k % 8` of the byte at `a + k / 8` (20_memory.md R64). -/
theorem State.readLE_getLsbD (s : State) (a n : Nat) {k : Nat} (hk : k < 32) :
    (s.readLE a n).getLsbD k = (decide (k < 8 * n) && (s.readByte (a + k / 8)).getLsbD (k % 8)) := by
  rw [State.readLE, leWord_getLsbD _ _ hk, List.getElem?_map]
  by_cases h : k < 8 * n
  · simp [h, List.getElem?_range (show k / 8 < n by omega)]
  · simp [h, List.getElem?_eq_none (l := List.range n) (i := k / 8) (by simp; omega)]

theorem State.readLE_one (s : State) (a : Nat) : s.readLE a 1 = (s.readByte a).setWidth 32 := by
  simp [State.readLE, leWord]

theorem State.readLE_two (s : State) (a : Nat) :
    s.readLE a 2 = (s.readByte a).setWidth 32 ||| ((s.readByte (a + 1)).setWidth 32 <<< 8) := by
  simp [State.readLE, leWord, List.range_succ]

theorem State.readLE_four (s : State) (a : Nat) :
    s.readLE a 4 = (s.readByte a).setWidth 32 ||| ((s.readByte (a + 1)).setWidth 32 <<< 8) |||
      ((s.readByte (a + 2)).setWidth 32 <<< 16) ||| ((s.readByte (a + 3)).setWidth 32 <<< 24) := by
  simp [State.readLE, leWord, List.range_succ, BitVec.shiftLeft_or_distrib, ← BitVec.shiftLeft_add, BitVec.or_assoc]

/-- `n` bytes at `a` hold the word `v`, the least significant byte first (20_memory.md R64). -/
def State.HoldsLE (s : State) (a n : Nat) (v : Word) : Prop :=
  ∀ k, k < n → s.readByte (a + k) = (v >>> (8 * k)).setWidth 8

/-- `m` of the bytes that hold `v`, from the `j`-th on, read as bits `8 * j` to `8 * (j + m) - 1` of `v`. -/
theorem State.HoldsLE.readLE {s : State} {a n : Nat} {v : Word} (h : s.HoldsLE a n v) {j m : Nat} (hjm : j + m ≤ n) :
    s.readLE (a + j) m = ((v >>> (8 * j)).setWidth (8 * m)).setWidth 32 := by
  apply BitVec.eq_of_getLsbD_eq
  intro k hk
  rw [State.readLE_getLsbD _ _ _ hk]
  by_cases hkm : k < 8 * m
  · rw [Nat.add_assoc, h (j + k / 8) (by omega)]
    simp [hk, hkm, Nat.mod_lt, show 8 * (j + k / 8) + k % 8 = 8 * j + k by omega]
  · simp [hkm]

/-- The first `m` of the bytes that hold `v` read as its low `8 * m` bits. -/
theorem State.HoldsLE.readLE_low {s : State} {a n : Nat} {v : Word} (h : s.HoldsLE a n v) {m : Nat} (hm : m ≤ n) :
    s.readLE a m = (v.setWidth (8 * m)).setWidth 32 := by
  simpa using h.readLE (j := 0) (m := m) (by omega)

theorem State.holdsLE_writeBytes (s : State) (a n : Nat) (v : Word) : (s.writeBytes a (leBytes n v)).HoldsLE a n v := by
  intro k hk
  rw [State.readByte_writeBytes_inside _ _ _ k (by simpa using hk), List.getElem_eq_iff]
  exact leBytes_getElem? n v k hk

/-! Reads and writes of IN and OUT while BUSY = 0 -/

/-- A read of IN or OUT while BUSY = 0 gives the host the bytes it names. -/
theorem State.hostRead_buffer_of_idle (s : State) {a : Offset} {n : Nat} (hb : s.busy = false)
    (h : regionOf s.params a.toNat n = some .inBuf ∨ regionOf s.params a.toNat n = some .outBuf) :
    (s.hostRead a n).reads = { a := a, n := n, data := s.readLE a.toNat n } :: s.reads := by
  rw [State.hostRead_buffer s h, State.readBuffer, hb, if_neg Bool.false_ne_true, State.returnData_reads]

/-- Settles O47. -/
theorem bufferReadsWhileIdle : Obligations.BufferReadsWhileIdle := by
  intro s a rest hb
  refine ⟨fun h hadm => ⟨_, step_host h, ?_⟩, fun h hadm => ⟨_, step_host h, ?_⟩, fun h hadm => ⟨_, step_host h, ?_⟩⟩
  · rw [← State.readLE_one]
    exact State.hostRead_buffer_of_idle { s with agenda := rest } hb (regionOf_buffer_of_narrow (by decide) hadm)
  · rw [← State.readLE_two]
    exact State.hostRead_buffer_of_idle { s with agenda := rest } hb (regionOf_buffer_of_narrow (by decide) hadm)
  · rw [← State.readLE_four]
    exact State.hostRead_buffer_of_idle { s with agenda := rest } hb hadm

theorem State.writeBuffer_of_idle (s : State) (h : s.busy = false) (a : Offset) (bs : List Byte) :
    s.writeBuffer a bs = s.writeBytes a.toNat bs := by
  rw [State.writeBuffer, h, if_neg Bool.false_ne_true]

/-- Settles O46: the bytes are stored by `State.writeBytes`, and the reads of them follow from `State.HoldsLE`. -/
theorem bufferWritesAreLittleEndian : Obligations.BufferWritesAreLittleEndian := by
  intro s a t n v rest hagenda hb ht hadm
  have hstep : step s = .next (State.writeBytes { s with agenda := rest } a.toNat (leBytes n v)) := by
    rw [step_host hagenda, ← State.writeBuffer_of_idle { s with agenda := rest } hb]
    rcases ht with ⟨x, rfl, rfl, rfl⟩ | ⟨x, rfl, rfl, rfl⟩ | ⟨rfl, rfl⟩ <;>
      exact hostWrite_buffer { s with agenda := rest } _ hadm
  have hfits : (v.setWidth (8 * n)).setWidth 32 = v := by
    rcases ht with ⟨x, -, rfl, rfl⟩ | ⟨x, -, rfl, rfl⟩ | ⟨-, rfl⟩ <;> simp
  have hheld := State.holdsLE_writeBytes { s with agenda := rest } a.toNat n v
  refine ⟨_, hstep, State.writeBytes_eq _ _ _, ?_, fun hn => ⟨?_, ?_⟩, hheld, fun b hout => ?_⟩
  · rw [hheld.readLE_low le_rfl, hfits]
  · rw [hheld.readLE_low (by omega), setWidth_16_setWidth_32]
  · rw [hheld.readLE (by omega), ushiftRight_16_setWidth_16_setWidth_32]
  · rw [State.readByte_writeBytes_outside _ _ _ _ (by simpa using hout)]
    rfl

end Sys2Proof.Machine
end

section
/-! SUPPORT. The command set's encoding: decode and encode agree on words and on bytes, a CMD write runs the command its
word decodes to, the block header is little-endian and unsigned, and WAIT polls STATUS (30_encoding.md R90 to R99). -/

namespace Sys2Proof

/-! Words and bytes of a command -/

@[simp] theorem decodeWord_encode (i : Instr) : decodeWord (encode i) = .ok i := by
  cases i with
  | build => exact decodeWord_build
  | decode => exact decodeWord_decode
  | release => exact decodeWord_release

/-- A word decodes to a command exactly when it is that command's word (30_encoding.md R90, R91). -/
theorem decodeWord_eq_ok_iff {w : Word} {i : Instr} : decodeWord w = .ok i ↔ w = encode i :=
  ⟨Machine.eq_encode_of_decodeWord, fun h => h ▸ decodeWord_encode i⟩

/-- Decoding takes the four bytes of one little-endian word off the front (30_encoding.md R96). -/
theorem decodeBytes_leBytes_append (w : Word) (rest : List Byte) :
    decodeBytes (leBytes 4 w ++ rest) = (decodeWord w).map fun i => (i, rest) := by
  calc decodeBytes (leBytes 4 w ++ rest)
      = (decodeWord (leWord (leBytes 4 w))).map fun i => (i, rest) := rfl
    _ = (decodeWord w).map fun i => (i, rest) := by rw [leWord_leBytes]

@[simp] theorem decodeBytes_encodeBytes_append (i : Instr) (rest : List Byte) :
    decodeBytes (encodeBytes i ++ rest) = .ok (i, rest) := by
  rw [encodeBytes, decodeBytes_leBytes_append, decodeWord_encode]
  rfl

/-- Bytes that decode are the four bytes of a word that decodes, and what follows them. -/
theorem decodeBytes_eq_ok {bs rest : List Byte} {i : Instr} (h : decodeBytes bs = .ok (i, rest)) :
    ∃ w, bs = leBytes 4 w ++ rest ∧ decodeWord w = .ok i := by
  unfold decodeBytes at h
  split at h
  · rename_i b0 b1 b2 b3 tail
    cases hw : decodeWord (leWord [b0, b1, b2, b3]) with
    | error e => rw [hw] at h; cases h
    | ok j =>
      rw [hw] at h
      cases h
      exact ⟨_, by rw [leBytes_leWord]; rfl, hw⟩
  · cases h

/-- Bytes decode to a command exactly when they begin with that command's bytes. -/
theorem decodeBytes_eq_ok_iff {bs rest : List Byte} {i : Instr} :
    decodeBytes bs = .ok (i, rest) ↔ bs = encodeBytes i ++ rest := by
  constructor
  · intro h
    obtain ⟨w, hbs, hw⟩ := decodeBytes_eq_ok h
    rw [hbs, decodeWord_eq_ok_iff.mp hw, encodeBytes]
  · rintro rfl
    exact decodeBytes_encodeBytes_append i rest

/-- The bit numbering of spec/opcode_table.json keeps a whole word as it is. -/
theorem ofNat_toNat_mod (w : Word) : BitVec.ofNat 32 (w.toNat % 2 ^ 32) = w := by
  rw [Nat.mod_eq_of_lt w.isLt, BitVec.ofNat_toNat, BitVec.setWidth_eq]

theorem decodeTableWord_encode (i : Instr) : decodeTableWord 32 (encode i).toNat = some i := by
  have h : decodeBytes (leBytes 4 (encode i)) = .ok (i, []) := by
    simpa [encodeBytes] using decodeBytes_encodeBytes_append i []
  rw [decodeTableWord, ofNat_toNat_mod, h]

/-- Settles O2. -/
theorem decodeAndEncodeAgree : Obligations.DecodeAndEncodeAgree :=
  ⟨fun _ _ => decodeWord_eq_ok_iff, fun _ _ _ => decodeBytes_eq_ok_iff, decodeTableWord_encode⟩

/-- Settles O1. -/
theorem commandWordsDecodeAsAssigned : Obligations.CommandWordsDecodeAsAssigned :=
  ⟨decodeWord_build, decodeWord_decode, decodeWord_release, by decide, by decide, by decide, by decide, by decide⟩

/-! Little-endian values -/

theorem leWord_cons_toNat (b : Byte) (bs : List Byte) :
    (leWord (b :: bs)).toNat = (b.toNat + 256 * (leWord bs).toNat) % 2 ^ 32 := by
  have hshift : (leWord bs <<< 8).toNat = 2 ^ 8 * ((leWord bs).toNat % 2 ^ 24) := by
    rw [BitVec.toNat_shiftLeft, Nat.shiftLeft_eq]
    omega
  have hbyte : (b.setWidth 32).toNat = b.toNat := BitVec.toNat_setWidth_of_le (by decide)
  rw [leWord, BitVec.toNat_or, hshift, hbyte, Nat.or_comm, ← Nat.two_pow_add_eq_or_of_lt b.isLt]
  have := b.isLt
  omega

/-- Four bytes as a number, the first in the least significant position (20_memory.md R64). -/
theorem leWord_four_toNat (b0 b1 b2 b3 : Byte) :
    (leWord [b0, b1, b2, b3]).toNat = b0.toNat + 256 * b1.toNat + 65536 * b2.toNat + 16777216 * b3.toNat := by
  have hnil : (leWord []).toNat = 0 := rfl
  simp only [leWord_cons_toNat, hnil]
  omega

end Sys2Proof

namespace Sys2Proof.Machine

/-- Settles O25: the header's count is the little-endian word of IN[0..3]. -/
theorem headerCountIsLittleEndianUnsigned : Obligations.HeaderCountIsLittleEndianUnsigned :=
  fun _ => leWord_four_toNat _ _ _ _

/-! The step -/

theorem submitWord_of_decodeWord {w : Word} {i : Instr} (h : decodeWord w = .ok i) (s : State) :
    submitWord w s = exec i s := by
  rw [submitWord, h]

/-- Settles O3. -/
theorem stepRunsTheDecodedCommand : Obligations.StepRunsTheDecodedCommand := by
  have run : ∀ (s : State) (w : Word) (rest : List Event) (i : Instr), s.agenda = submitEvent w :: rest →
      decodeWord w = .ok i → step s = exec i { s with agenda := rest } := by
    intro s w rest i hagenda hw
    rw [step_cons hagenda, runEvent_submitEvent, submitWord_of_decodeWord hw]
  refine ⟨run, fun s i => run (s.withFetchWord 32 (encode i).toNat) (encode i) s.agenda i ?_ (decodeWord_encode i)⟩
  rw [State.withFetchWord, ofNat_toNat_mod]

/-! WAIT -/

theorem State.poll_of_idle (s : State) (h : s.busy = false) : s.poll = s.returnData 0x004 4 s.statusWord := by
  rw [State.poll_eq, h, if_neg Bool.false_ne_true]

theorem State.poll_of_busy (s : State) (h : s.busy = true) :
    s.poll = { s.returnData 0x004 4 s.statusWord with agenda := .block :: .wait :: s.agenda } := by
  rw [State.poll_eq, h, if_pos rfl]

/-- Settles O49: whether BUSY is set decides what the poll leaves on the agenda. -/
theorem waitPollsStatus : Obligations.WaitPollsStatus := by
  intro s rest hagenda
  refine ⟨State.poll { s with agenda := rest }, step_cons hagenda, ?_⟩
  cases hb : s.busy with
  | false =>
    rw [State.poll_of_idle { s with agenda := rest } hb]
    exact ⟨rfl, fun _ => rfl, nofun, rfl⟩
  | true =>
    rw [State.poll_of_busy { s with agenda := rest } hb]
    exact ⟨rfl, nofun, fun _ => rfl, rfl⟩

end Sys2Proof.Machine
end

section
/-! SUPPORT. Pick and InitContext: the node Pick finds (40_build.md R112) and the scratch a context starts from
(R111). -/

namespace Sys2Proof.Machine

/-! Pick -/

/-- Node `i` is one that Pick may find: unused, with a nonzero count (40_build.md R112). -/
abbrev Scratch.Pickable (sc : Scratch) (i : Nat) : Prop := sc.isUsed i = false ∧ sc.count i ≠ 0

/-- Node `b` is the one Pick(n) is to find: of lowest count below n, and of lowest number among equal counts. -/
structure Scratch.IsPick (sc : Scratch) (n b : Nat) : Prop where
  lt : b < n
  pickable : sc.Pickable b
  least : ∀ i, i < n → sc.Pickable i → (sc.count b).toNat ≤ (sc.count i).toNat
  first : ∀ i, i < b → sc.Pickable i → (sc.count b).toNat < (sc.count i).toNat

/-- There is one node for Pick(n) to find: of two, the later one is not the first of its count. -/
theorem Scratch.IsPick.unique {sc : Scratch} {n a b : Nat} (ha : sc.IsPick n a) (hb : sc.IsPick n b) : a = b := by
  have no_later : ∀ {x y}, sc.IsPick n x → sc.IsPick n y → ¬ x < y := fun hx hy hlt =>
    absurd (hx.least _ hy.lt hy.pickable) (Nat.not_le_of_lt (hy.first _ hlt hx.pickable))
  exact Nat.le_antisymm (Nat.le_of_not_lt (no_later hb ha)) (Nat.le_of_not_lt (no_later ha hb))

/-- A further node that is not pickable, or not below the best count, leaves the best node the best. -/
theorem Scratch.IsPick.succ {sc : Scratch} {n b : Nat} (h : sc.IsPick n b)
    (hn : sc.Pickable n → (sc.count b).toNat ≤ (sc.count n).toNat) : sc.IsPick (n + 1) b where
  lt := Nat.lt_succ_of_lt h.lt
  pickable := h.pickable
  least i hi hp := by
    rcases Nat.lt_succ_iff_lt_or_eq.mp hi with hi | rfl
    · exact h.least i hi hp
    · exact hn hp
  first := h.first

/-- A further node whose count is below every pickable one is the best. -/
theorem Scratch.isPick_succ_self {sc : Scratch} {n : Nat} (hn : sc.Pickable n)
    (h : ∀ i, i < n → sc.Pickable i → (sc.count n).toNat < (sc.count i).toNat) : sc.IsPick (n + 1) n where
  lt := Nat.lt_succ_self n
  pickable := hn
  least i hi hp := by
    rcases Nat.lt_succ_iff_lt_or_eq.mp hi with hi | rfl
    · exact (h i hi hp).le
    · exact le_rfl
  first := h

/-- Pick's search over the nodes 0..n-1, with the best node so far and its count. -/
def pickSearch (sc : Scratch) (n : Nat) : Option (Nat × Half) :=
  ((List.range n).map fun i => ((sc.count i, sc.isUsed i), i)).foldl pickTurn none

theorem pickSearch_succ (sc : Scratch) (n : Nat) :
    pickSearch sc (n + 1) = pickTurn (pickSearch sc n) ((sc.count n, sc.isUsed n), n) := by
  simp [pickSearch, List.range_succ]

theorem pickTurn_of_not_pickable {sc : Scratch} {i : Nat} (h : ¬ sc.Pickable i) (best : Option (Nat × Half)) :
    pickTurn best ((sc.count i, sc.isUsed i), i) = best := by
  by_cases hu : sc.isUsed i = true
  · simp [pickTurn, hu]
  · have hc : sc.count i = 0 := by simpa [Scratch.Pickable, hu] using h
    simp [pickTurn, hc]

theorem pickTurn_none {sc : Scratch} {i : Nat} (h : sc.Pickable i) :
    pickTurn none ((sc.count i, sc.isUsed i), i) = some (i, sc.count i) := by
  obtain ⟨hu, hc⟩ := h
  rw [pickTurn, if_neg (by simp [hu]), if_neg hc]

theorem pickTurn_some {sc : Scratch} {i : Nat} (h : sc.Pickable i) (b : Nat) (least : Half) :
    pickTurn (some (b, least)) ((sc.count i, sc.isUsed i), i) =
      if sc.count i < least then some (i, sc.count i) else some (b, least) := by
  obtain ⟨hu, hc⟩ := h
  rw [pickTurn, if_neg (by simp [hu]), if_neg hc]

/-- What the search knows after the nodes below `n`: its best node, or that none of them is pickable. -/
def Scratch.SearchedTo (sc : Scratch) (n : Nat) : Option (Nat × Half) → Prop
  | none => ∀ i, i < n → ¬ sc.Pickable i
  | some (b, least) => least = sc.count b ∧ sc.IsPick n b

theorem searchedTo_pickSearch (sc : Scratch) (n : Nat) : sc.SearchedTo n (pickSearch sc n) := by
  induction n with
  | zero => exact fun i hi => absurd hi (Nat.not_lt_zero i)
  | succ n ih =>
    rw [pickSearch_succ]
    by_cases hn : sc.Pickable n
    · match pickSearch sc n, ih with
      | none, ih =>
        rw [pickTurn_none hn]
        exact ⟨rfl, Scratch.isPick_succ_self hn fun i hi hp => absurd hp (ih i hi)⟩
      | some (b, least), ⟨hleast, hb⟩ =>
        rw [pickTurn_some hn, hleast]
        by_cases hlt : sc.count n < sc.count b
        · rw [if_pos hlt]
          exact ⟨rfl, Scratch.isPick_succ_self hn fun i hi hp => hlt.trans_le (hb.least i hi hp)⟩
        · rw [if_neg hlt]
          exact ⟨rfl, hb.succ fun _ => Nat.le_of_not_lt hlt⟩
    · rw [pickTurn_of_not_pickable hn]
      match pickSearch sc n, ih with
      | none, ih =>
        intro i hi
        rcases Nat.lt_succ_iff_lt_or_eq.mp hi with hi | rfl
        · exact ih i hi
        · exact hn
      | some (b, least), ⟨hleast, hb⟩ => exact ⟨hleast, hb.succ fun hp => absurd hp hn⟩

theorem pickNode_eq_none_iff {sc : Scratch} {n : Nat} (hn : n ≤ 511) :
    pickNode sc n = none ↔ ∀ i, i < n → ¬ sc.Pickable i := by
  have hs := searchedTo_pickSearch sc n
  rw [pickNode_eq_search sc hn]
  change (pickSearch sc n).map _ = none ↔ _
  match pickSearch sc n, hs with
  | none, hs => exact ⟨fun _ => hs, fun _ => rfl⟩
  | some (b, _), ⟨_, hb⟩ => exact ⟨nofun, fun h => absurd hb.pickable (h b hb.lt)⟩

theorem pickNode_eq_some_iff {sc : Scratch} {n b : Nat} (hn : n ≤ 511) : pickNode sc n = some b ↔ sc.IsPick n b := by
  have hs := searchedTo_pickSearch sc n
  rw [pickNode_eq_search sc hn]
  change (pickSearch sc n).map _ = some b ↔ _
  match pickSearch sc n, hs with
  | none, hs => exact ⟨nofun, fun h => absurd h.pickable (hs b h.lt)⟩
  | some (a, _), ⟨_, ha⟩ => exact ⟨fun h => Option.some.inj h ▸ ha, fun h => congrArg some (ha.unique h)⟩

/-- Settles O14: the search keeps the best node so far, and there is one best node. -/
theorem pickFindsLowestCountThenLowestNumber : Obligations.PickFindsLowestCountThenLowestNumber := by
  intro sc n hn
  refine ⟨(pickNode_eq_none_iff hn).trans (forall₂_congr fun i _ => ?_), fun b => (pickNode_eq_some_iff hn).trans ?_⟩
  · rw [not_and_or, Bool.not_eq_false, ne_eq, not_not]
  · exact ⟨fun ⟨lt, ⟨unused, nonzero⟩, least, first⟩ =>
        ⟨lt, unused, nonzero, fun i hi hu hc => least i hi ⟨hu, hc⟩, fun i hi hu hc => first i hi ⟨hu, hc⟩⟩,
      fun ⟨lt, unused, nonzero, least, first⟩ =>
        ⟨lt, ⟨unused, nonzero⟩, fun i hi hp => least i hi hp.1 hp.2, fun i hi hp => first i hi hp.1 hp.2⟩⟩

/-! InitContext -/

theorem padTo_getElem? {α : Type} (x : α) (n : Nat) (l : List α) {i : Nat} (h : i < n) :
    (padTo x n l)[i]? = some (l[i]?.getD x) := by
  induction n generalizing l i with
  | zero => omega
  | succ n ih =>
    cases i with
    | zero => cases l <;> simp [padTo]
    | succ i =>
      have ih := fun l => ih l (Nat.lt_of_succ_lt_succ h)
      cases l <;> simp [padTo, ih]

/-- CNT[i] after InitContext is the row's count, and 0 past the row's end (40_build.md R111). -/
theorem initContext_count (row : List Byte) {i : Nat} (h : i < 511) :
    (initContext row).count i = (row[i]?.getD 0).setWidth 16 := by
  simp only [Scratch.count, initContext, padded, Vector.getElem?_mk, List.getElem?_toArray, padTo_getElem? _ _ _ h,
    List.getElem?_map, Option.getD_some]
  cases row[i]? <;> rfl

theorem initContext_count_toNat (row : List Byte) {i : Nat} (h : i < 511) :
    ((initContext row).count i).toNat = (row[i]?.getD 0).toNat := by
  rw [initContext_count row h, BitVec.toNat_setWidth_of_le (by decide)]

theorem initContext_isUsed (row : List Byte) {i : Nat} (h : i < 511) : (initContext row).isUsed i = false := by
  rw [Scratch.isUsed_eq _ h]
  simp [initContext]

/-- Settles O13. -/
theorem initContextCopiesTheRow : Obligations.InitContextCopiesTheRow := by
  intro row hrow
  refine ⟨fun j hj => ?_, fun i hi hi' => ?_, fun i hi => initContext_isUsed row hi⟩
  · rw [initContext_count_toNat row (by omega), List.getElem?_eq_getElem hj, Option.getD_some]
  · rw [initContext_count row hi', List.getElem?_eq_none (by omega)]
    rfl

end Sys2Proof.Machine
end

section
/-! SUPPORT. One turn of the merge loop (40_build.md R113): when it ends the loop, and what a merge does to the pairs
and the scratch. -/

namespace Sys2Proof.Machine

/-! One turn -/

/-- A turn whose two picks succeed: both nodes are marked used and linked under a new one (40_build.md R113). -/
def Growth.merge (g : Growth) (a b : Nat) : Growth :=
  Growth.link { g with scratch := (g.scratch.mark a).mark b } a b

@[simp] theorem Growth.merge_pairs (g : Growth) (a b : Nat) :
    (g.merge a b).pairs = g.pairs ++ [(BitVec.ofNat 9 a, BitVec.ofNat 9 b)] := rfl

@[simp] theorem Growth.merge_numNodes (g : Growth) (a b : Nat) : (g.merge a b).numNodes = g.numNodes + 1 :=
  Growth.numNodes_link _ a b

theorem Growth.merge_count {g : Growth} (hn : g.numNodes < 511) (a b i : Nat) :
    (g.merge a b).scratch.count i =
      if i = g.numNodes then g.scratch.count a + g.scratch.count b else g.scratch.count i :=
  Scratch.count_setCount _ _ hn

theorem Growth.merge_isUsed (g : Growth) (a b : Nat) {i : Nat} (hi : i < 511) :
    (g.merge a b).scratch.isUsed i = (g.scratch.isUsed i || i == a || i == b) := by
  simp only [Growth.merge, Growth.link, Scratch.isUsed_setCount, Scratch.isUsed_mark _ _ hi]

theorem mergeLoop_of_full (fuel : Nat) {g : Growth} (h : g.numNodes = 511) : mergeLoop (fuel + 1) g = g := by
  rw [mergeLoop, if_pos h]

theorem mergeLoop_of_no_pick (fuel : Nat) {g : Growth} (ha : pickNode g.scratch g.numNodes = none) :
    mergeLoop (fuel + 1) g = g := by
  rw [mergeLoop]
  simp only [ha, ite_self]

theorem mergeLoop_of_one_pick (fuel : Nat) {g : Growth} {a : Nat} (hn : g.numNodes ≠ 511)
    (ha : pickNode g.scratch g.numNodes = some a) (hb : pickNode (g.scratch.mark a) g.numNodes = none) :
    mergeLoop (fuel + 1) g = { g with scratch := g.scratch.mark a } := by
  rcases mergeLoop_cases fuel g with ⟨h, _⟩ | ⟨_, h, _⟩ | ⟨a', _, h, _, heq⟩ | ⟨a', b', _, h, h', _⟩
  · exact absurd h hn
  · cases ha.symm.trans h
  · cases ha.symm.trans h
    exact heq
  · cases ha.symm.trans h
    cases hb.symm.trans h'

theorem mergeLoop_of_two_picks (fuel : Nat) {g : Growth} {a b : Nat} (hn : g.numNodes ≠ 511)
    (ha : pickNode g.scratch g.numNodes = some a) (hb : pickNode (g.scratch.mark a) g.numNodes = some b) :
    mergeLoop (fuel + 1) g = mergeLoop fuel (g.merge a b) := by
  rcases mergeLoop_cases fuel g with ⟨h, _⟩ | ⟨_, h, _⟩ | ⟨a', _, h, h', _⟩ | ⟨a', b', _, h, h', heq⟩
  · exact absurd h hn
  · cases ha.symm.trans h
  · cases ha.symm.trans h
    cases hb.symm.trans h'
  · cases ha.symm.trans h
    cases hb.symm.trans h'
    exact heq

/-- Settles O15. -/
theorem mergeTurnLinksTheTwoPicks : Obligations.MergeTurnLinksTheTwoPicks := by
  intro fuel g
  refine ⟨mergeLoop_of_full fuel, fun hn => ⟨fun a b ha hb => ?_, mergeLoop_of_no_pick fuel, fun a ha hb => ?_⟩⟩
  · exact ⟨g.merge a b, mergeLoop_of_two_picks fuel hn.ne ha hb, g.merge_pairs a b, g.merge_numNodes a b,
      (Growth.merge_count hn a b _).trans (if_pos rfl), fun i hi => (Growth.merge_count hn a b i).trans (if_neg hi),
      fun i hi => g.merge_isUsed a b hi⟩
  · rw [mergeLoop_of_one_pick fuel hn.ne ha hb]

end Sys2Proof.Machine
end

section
/-! SUPPORT. The terms of the merge loop's invariant: a row's sum and its nonzero counts by symbol number (40_build.md
R114, R115), and the children of a context's internal nodes (R119). -/

namespace Sys2Proof.Machine

/-! Rows as sums over node numbers -/

theorem range_map_getD (row : List Byte) : (List.range row.length).map (fun i => row[i]?.getD 0) = row := by
  refine List.ext_getElem (by simp) fun i _ h => ?_
  simp [List.getElem?_eq_getElem h]

/-- The sum of a row, by symbol number. -/
theorem sum_range_row (row : List Byte) :
    ∑ i ∈ Finset.range row.length, (row[i]?.getD 0).toNat = rowSum row := by
  conv_rhs => rw [rowSum, ← range_map_getD row, List.map_map]
  rfl

/-- The number of nonzero counts of a row, by symbol number. -/
theorem card_range_row (row : List Byte) :
    ((Finset.range row.length).filter fun i => row[i]?.getD 0 ≠ 0).card = nonzeroSymbols row := by
  conv_rhs => rw [nonzeroSymbols, ← range_map_getD row, List.countP_map]
  rw [← Nat.count_eq_card_filter_range, Nat.count]
  refine List.countP_congr fun i _ => ?_
  simp

theorem nonzeroSymbols_le {row : List Byte} (h : row.length = 256) : nonzeroSymbols row ≤ 256 :=
  h ▸ List.countP_le_length

/-- A row's counts add up to at most 256 * 255 (40_build.md R115). -/
theorem rowSum_le {row : List Byte} (h : row.length = 256) : rowSum row ≤ 65280 := by
  have hle := List.sum_le_card_nsmul (row.map BitVec.toNat) 255 fun n hn => by
    obtain ⟨b, _, rfl⟩ := List.mem_map.mp hn
    exact Nat.le_of_lt_succ b.isLt
  simpa [rowSum, h] using hle

/-! The children of a context -/

/-- The children of a context's internal nodes, pair after pair. -/
def childNodes (pairs : List (Node × Node)) : List Nat := pairs.flatMap fun p => [p.1.toNat, p.2.toNat]

/-- The child of a pair that a bit leads to (41_decode.md R149). -/
abbrev childSide (p : Node × Node) (bit : Bool) : Node := if bit then p.2 else p.1

@[simp] theorem childNodes_nil : childNodes [] = [] := rfl

theorem childNodes_concat (pairs : List (Node × Node)) (p : Node × Node) :
    childNodes (pairs ++ [p]) = childNodes pairs ++ [p.1.toNat, p.2.toNat] := by
  simp [childNodes]

theorem mem_childNodes {pairs : List (Node × Node)} {n : Nat} :
    n ∈ childNodes pairs ↔
      ∃ (k : Nat) (p : Node × Node) (bit : Bool), pairs[k]? = some p ∧ (childSide p bit).toNat = n := by
  rw [childNodes, List.mem_flatMap]
  constructor
  · rintro ⟨p, hp, hn⟩
    obtain ⟨k, hk⟩ := List.mem_iff_getElem?.mp hp
    rcases List.mem_pair.mp hn with rfl | rfl
    · exact ⟨k, p, false, hk, rfl⟩
    · exact ⟨k, p, true, hk, rfl⟩
  · rintro ⟨k, p, bit, hk, rfl⟩
    refine ⟨p, List.mem_of_getElem? hk, ?_⟩
    cases bit <;> simp [childSide]

theorem ChildrenBelow.childSide_lt {pairs : List (Node × Node)} (h : ChildrenBelow pairs) {k : Nat} {p : Node × Node}
    (hk : pairs[k]? = some p) (bit : Bool) : (childSide p bit).toNat < 256 + k := by
  obtain ⟨hlt, rfl⟩ := List.getElem?_eq_some_iff.mp hk
  obtain ⟨h1, h2⟩ := h k hlt
  cases bit
  · exact h1
  · exact h2

/-- A child lies below the node built last. -/
theorem ChildrenBelow.mem_childNodes_lt {pairs : List (Node × Node)} (h : ChildrenBelow pairs) {n : Nat}
    (hn : n ∈ childNodes pairs) : n < 255 + pairs.length := by
  obtain ⟨k, p, bit, hk, rfl⟩ := mem_childNodes.mp hn
  have hlt := h.childSide_lt hk bit
  have := (List.getElem?_eq_some_iff.mp hk).1
  omega

/-- With all children different, a child has one parent, and one bit leads to it. -/
theorem childSide_inj {pairs : List (Node × Node)} (h : (childNodes pairs).Nodup) {j k : Nat} {p q : Node × Node}
    {b c : Bool} (hj : pairs[j]? = some p) (hk : pairs[k]? = some q) (heq : childSide p b = childSide q c) :
    j = k ∧ b = c := by
  obtain ⟨hpair, hdisj⟩ := List.nodup_flatMap.mp h
  obtain ⟨hjlt, rfl⟩ := List.getElem?_eq_some_iff.mp hj
  obtain ⟨hklt, rfl⟩ := List.getElem?_eq_some_iff.mp hk
  have mem_side : ∀ (p : Node × Node) (bit : Bool), (childSide p bit).toNat ∈ [p.1.toNat, p.2.toNat] := by
    rintro p (_ | _) <;> simp [childSide]
  have apart : ∀ {j k : Nat} (hj : j < pairs.length) (hk : k < pairs.length) {b c : Bool},
      childSide pairs[j] b = childSide pairs[k] c → ¬ j < k := fun hj hk b c heq hlt =>
    List.pairwise_iff_getElem.mp hdisj _ _ hj hk hlt (mem_side _ b) (heq ▸ mem_side _ c)
  have hjk : j = k := by
    have := apart hjlt hklt heq
    have := apart hklt hjlt heq.symm
    omega
  subst hjk
  have hne : pairs[j].1 ≠ pairs[j].2 := by
    have := hpair _ (List.getElem_mem hjlt)
    intro he
    simp [he] at this
  refine ⟨rfl, ?_⟩
  cases b <;> cases c <;> simp_all [childSide]

end Sys2Proof.Machine
end

section
/-! SUPPORT. The invariant of the merge loop (40_build.md R114, R115, R119): InitContext establishes it, a merge keeps
it, and the loop ends with one tree at most. -/

namespace Sys2Proof.Machine

theorem getElem?_concat_cases {α : Type} {l : List α} {x y : α} {k : Nat} (h : (l ++ [x])[k]? = some y) :
    l[k]? = some y ∨ (k = l.length ∧ x = y) := by
  rcases lt_trichotomy k l.length with hk | rfl | hk
  · exact .inl ((List.getElem?_append_left hk).symm.trans h)
  · exact .inr ⟨rfl, by simpa using h⟩
  · rw [List.getElem?_eq_none (by simpa using hk)] at h
    cases h

theorem half_ne_zero_iff {x : Half} : x ≠ 0 ↔ 0 < x.toNat := by
  rw [ne_eq, ← BitVec.toNat_inj]
  exact Nat.pos_iff_ne_zero.symm

theorem ne_zero_iff_of_toNat_eq {x : Half} {b : Byte} (h : x.toNat = b.toNat) : x ≠ 0 ↔ b ≠ 0 := by
  rw [ne_eq, ne_eq, ← BitVec.toNat_inj, ← BitVec.toNat_inj, h]
  rfl

/-! The invariant of the merge loop -/

/-- The nodes that a Pick may still find: the roots of the trees grown so far. -/
def Growth.roots (g : Growth) : Finset Nat := (Finset.range g.numNodes).filter fun i => g.scratch.Pickable i

@[simp] theorem Growth.mem_roots {g : Growth} {i : Nat} : i ∈ g.roots ↔ i < g.numNodes ∧ g.scratch.Pickable i := by
  rw [Growth.roots, Finset.mem_filter, Finset.mem_range]

/-- The invariant of the merge loop over a row: the trees grown so far are disjoint, they cover the row's nonzero
counts, and each node's count is the sum of the leaves below it (40_build.md R114, R115, R119). -/
structure Growth.Grown (row : List Byte) (g : Growth) : Prop where
  size : g.pairs.length ≤ 255
  below : ChildrenBelow g.pairs
  distinct : (childNodes g.pairs).Nodup
  /-- The leaves keep the row's counts (40_build.md R111). -/
  leaf : ∀ j, j < 256 → (g.scratch.count j).toNat = (row[j]?.getD 0).toNat
  /-- The nodes marked used are the children. -/
  used : ∀ i, i < 511 → (g.scratch.isUsed i = true ↔ i ∈ childNodes g.pairs)
  nonzero : ∀ i ∈ childNodes g.pairs, g.scratch.count i ≠ 0
  /-- An internal node's count is the sum of its children's, as natural numbers. -/
  sums : ∀ (k : Nat) (p : Node × Node), g.pairs[k]? = some p → (g.scratch.count (256 + k)).toNat =
    (g.scratch.count p.1.toNat).toNat + (g.scratch.count p.2.toNat).toNat
  bounded : ∀ k, k < g.pairs.length → (g.scratch.count (256 + k)).toNat ≤ rowSum row
  /-- The roots' counts add up to the row's sum. -/
  total : ∑ i ∈ g.roots, (g.scratch.count i).toNat = rowSum row
  /-- Each merge took one from the number of roots. -/
  merges : g.roots.card + g.pairs.length = nonzeroSymbols row

/-- The scratch of InitContext: 256 trees of one leaf each. -/
theorem grown_initContext {row : List Byte} (hrow : row.length = 256) :
    Growth.Grown row { pairs := [], scratch := initContext row } := by
  have leaf : ∀ i, i < 256 → ((initContext row).count i).toNat = (row[i]?.getD 0).toNat := fun i hi =>
    initContext_count_toNat row (by omega)
  have roots : Growth.roots { pairs := [], scratch := initContext row } =
      (Finset.range row.length).filter fun i => row[i]?.getD 0 ≠ 0 := by
    rw [hrow]
    refine Finset.filter_congr fun i hi => ?_
    have hi : i < 256 := Finset.mem_range.mp hi
    exact (and_iff_right (initContext_isUsed row (by omega))).trans (ne_zero_iff_of_toNat_eq (leaf i hi))
  exact {
    size := Nat.zero_le _
    below := fun k hk => absurd hk (Nat.not_lt_zero k)
    distinct := List.nodup_nil
    leaf := leaf
    used := fun i hi => by simp [initContext_isUsed row hi]
    nonzero := by simp
    sums := nofun
    bounded := fun k hk => absurd hk (Nat.not_lt_zero k)
    total := by
      rw [roots, ← sum_range_row, Finset.sum_filter]
      refine Finset.sum_congr rfl fun i hi => ?_
      rw [leaf i (hrow ▸ Finset.mem_range.mp hi)]
      by_cases h0 : row[i]?.getD 0 = 0
      · rw [if_neg (not_not.mpr h0), h0]
        rfl
      · rw [if_pos h0]
    merges := by rw [roots, card_range_row]; rfl }

/-- The two picks of a turn are two different roots. -/
structure Growth.Picks (g : Growth) (a b : Nat) : Prop where
  first : a ∈ g.roots
  second : b ∈ g.roots
  ne : a ≠ b

theorem Growth.picks_of_pickNode {g : Growth} {a b : Nat} (hn : g.numNodes ≤ 511)
    (ha : pickNode g.scratch g.numNodes = some a) (hb : pickNode (g.scratch.mark a) g.numNodes = some b) :
    g.Picks a b := by
  have pa := (pickNode_eq_some_iff hn).mp ha
  obtain ⟨hlt, ⟨hunused, hcount⟩, _, _⟩ := (pickNode_eq_some_iff hn).mp hb
  rw [Scratch.isUsed_mark _ _ (hlt.trans_le hn), Bool.or_eq_false_iff, beq_eq_false_iff_ne] at hunused
  exact ⟨Growth.mem_roots.mpr ⟨pa.lt, pa.pickable⟩, Growth.mem_roots.mpr ⟨hlt, hunused.1, hcount⟩, hunused.2.symm⟩

section
variable {row : List Byte} {g : Growth} {a b : Nat}

/-- The counts of two roots and of the others add up to the row's sum. -/
theorem Growth.Grown.total_picks (h : g.Grown row) (p : g.Picks a b) :
    (g.scratch.count a).toNat + ((g.scratch.count b).toNat +
      ∑ i ∈ (g.roots.erase a).erase b, (g.scratch.count i).toNat) = rowSum row := by
  rw [Finset.add_sum_erase _ (fun i => (g.scratch.count i).toNat) (Finset.mem_erase.mpr ⟨p.ne.symm, p.second⟩),
    Finset.add_sum_erase _ (fun i => (g.scratch.count i).toNat) p.first, h.total]

/-- The 16-bit sum of a merge is exact (40_build.md R115). -/
theorem Growth.Grown.toNat_add_picks (h : g.Grown row) (hrow : row.length = 256) (p : g.Picks a b) :
    (g.scratch.count a + g.scratch.count b).toNat = (g.scratch.count a).toNat + (g.scratch.count b).toNat := by
  have := h.total_picks p
  have := rowSum_le hrow
  exact BitVec.toNat_add_of_lt (by omega)

/-- A root is no child. -/
theorem Growth.Grown.notMem_childNodes (h : g.Grown row) (ha : a ∈ g.roots) : a ∉ childNodes g.pairs := by
  obtain ⟨hlt, hunused, _⟩ := Growth.mem_roots.mp ha
  have hn : g.numNodes = 256 + g.pairs.length := rfl
  have := h.size
  rw [← h.used a (by omega), hunused]
  exact Bool.false_ne_true

theorem Growth.merge_count_of_lt (hn : g.numNodes < 511) {i : Nat} (hi : i < g.numNodes) (a b : Nat) :
    (g.merge a b).scratch.count i = g.scratch.count i := by
  rw [Growth.merge_count hn, if_neg hi.ne]

theorem Growth.merge_count_self (hn : g.numNodes < 511) (a b : Nat) :
    (g.merge a b).scratch.count g.numNodes = g.scratch.count a + g.scratch.count b := by
  rw [Growth.merge_count hn, if_pos rfl]

/-- The sum of a merge is not 0 (40_build.md R115). -/
theorem Growth.Grown.add_picks_ne_zero (h : g.Grown row) (hrow : row.length = 256) (p : g.Picks a b) :
    g.scratch.count a + g.scratch.count b ≠ 0 := by
  obtain ⟨_, _, ha⟩ := Growth.mem_roots.mp p.first
  rw [half_ne_zero_iff] at ha ⊢
  rw [h.toNat_add_picks hrow p]
  omega

/-- The new node of a merge is a root. -/
theorem Growth.Grown.pickable_merge_self (h : g.Grown row) (hrow : row.length = 256) (hn : g.numNodes < 511)
    (p : g.Picks a b) : (g.merge a b).scratch.Pickable g.numNodes := by
  have hnum : g.numNodes = 256 + g.pairs.length := rfl
  have ha := (Growth.mem_roots.mp p.first).1.ne'
  have hb := (Growth.mem_roots.mp p.second).1.ne'
  have hunused : g.scratch.isUsed g.numNodes = false := by
    rw [← Bool.not_eq_true, h.used _ hn]
    intro hmem
    have := h.below.mem_childNodes_lt hmem
    omega
  refine ⟨?_, ?_⟩
  · rw [Growth.merge_isUsed _ _ _ hn, hunused, beq_eq_false_iff_ne.mpr ha, beq_eq_false_iff_ne.mpr hb]
    rfl
  · rw [Growth.merge_count_self hn]
    exact h.add_picks_ne_zero hrow p

/-- Of the older nodes a merge takes its two picks from the roots. -/
theorem Growth.pickable_merge_iff (hn : g.numNodes < 511) {i : Nat} (hi : i < g.numNodes) :
    (g.merge a b).scratch.Pickable i ↔ i ≠ b ∧ i ≠ a ∧ g.scratch.Pickable i := by
  rw [Scratch.Pickable, Growth.merge_isUsed _ _ _ (hi.trans hn), Growth.merge_count_of_lt hn hi, Bool.or_eq_false_iff,
    Bool.or_eq_false_iff, beq_eq_false_iff_ne, beq_eq_false_iff_ne]
  tauto

/-- A merge replaces its two picks by the new node among the roots. -/
theorem Growth.Grown.merge_roots (h : g.Grown row) (hrow : row.length = 256) (hn : g.numNodes < 511)
    (p : g.Picks a b) : (g.merge a b).roots = insert g.numNodes ((g.roots.erase a).erase b) := by
  ext i
  rw [Growth.mem_roots, Growth.merge_numNodes, Finset.mem_insert, Finset.mem_erase, Finset.mem_erase, Growth.mem_roots]
  rcases lt_trichotomy i g.numNodes with hi | rfl | hi
  · rw [Growth.pickable_merge_iff hn hi]
    have := hi.ne
    have := Nat.lt_succ_of_lt hi
    tauto
  · exact iff_of_true ⟨Nat.lt_succ_self _, h.pickable_merge_self hrow hn p⟩ (.inl rfl)
  · constructor
    · rintro ⟨hlt, _⟩
      omega
    · rintro (rfl | ⟨_, _, hlt, _⟩) <;> omega

theorem Growth.numNodes_notMem_roots (g : Growth) (a b : Nat) : g.numNodes ∉ (g.roots.erase a).erase b :=
  fun h => absurd (Growth.mem_roots.mp (Finset.mem_of_mem_erase (Finset.mem_of_mem_erase h))).1 (lt_irrefl _)

/-- A merge keeps the sum of the roots. -/
theorem Growth.Grown.merge_total (h : g.Grown row) (hrow : row.length = 256) (hn : g.numNodes < 511)
    (p : g.Picks a b) : ∑ i ∈ (g.merge a b).roots, ((g.merge a b).scratch.count i).toNat = rowSum row := by
  have others : ∑ i ∈ (g.roots.erase a).erase b, ((g.merge a b).scratch.count i).toNat =
      ∑ i ∈ (g.roots.erase a).erase b, (g.scratch.count i).toNat :=
    Finset.sum_congr rfl fun i hi => by
      have hi := Growth.mem_roots.mp (Finset.mem_of_mem_erase (Finset.mem_of_mem_erase hi))
      rw [Growth.merge_count_of_lt hn hi.1]
  rw [h.merge_roots hrow hn p, Finset.sum_insert (g.numNodes_notMem_roots a b), others, Growth.merge_count_self hn,
    h.toNat_add_picks hrow p, add_assoc, h.total_picks p]

/-- A merge takes one from the number of roots (40_build.md R114). -/
theorem Growth.Grown.card_merge_roots (h : g.Grown row) (hrow : row.length = 256) (hn : g.numNodes < 511)
    (p : g.Picks a b) : (g.merge a b).roots.card + 1 = g.roots.card := by
  have hb := Finset.mem_erase.mpr ⟨p.ne.symm, p.second⟩
  rw [h.merge_roots hrow hn p, Finset.card_insert_of_notMem (g.numNodes_notMem_roots a b),
    Finset.card_erase_add_one hb, Finset.card_erase_add_one p.first]

/-- A merge keeps the invariant. -/
theorem Growth.Grown.merge (h : g.Grown row) (hrow : row.length = 256) (hn : g.numNodes < 511) (p : g.Picks a b) :
    (g.merge a b).Grown row := by
  have hnum : g.numNodes = 256 + g.pairs.length := rfl
  obtain ⟨halt, _, ha⟩ := Growth.mem_roots.mp p.first
  obtain ⟨hblt, _, hb⟩ := Growth.mem_roots.mp p.second
  have toNat_a : (BitVec.ofNat 9 a).toNat = a := Nat.mod_eq_of_lt (by omega)
  have toNat_b : (BitVec.ofNat 9 b).toNat = b := Nat.mod_eq_of_lt (by omega)
  have children : childNodes (g.merge a b).pairs = childNodes g.pairs ++ [a, b] := by
    rw [Growth.merge_pairs, childNodes_concat, toNat_a, toNat_b]
  have count_child : ∀ i ∈ childNodes g.pairs, (g.merge a b).scratch.count i = g.scratch.count i := fun i hi => by
    have := h.below.mem_childNodes_lt hi
    exact Growth.merge_count_of_lt hn (by omega) a b
  exact {
    size := by
      rw [Growth.merge_pairs, List.length_append, List.length_singleton]
      omega
    below := h.below.concat (by simp only [toNat_a]; omega) (by simp only [toNat_b]; omega)
    distinct := by
      rw [children, List.nodup_append]
      refine ⟨h.distinct, by simpa using p.ne, fun i hi j hj => ?_⟩
      rcases List.mem_pair.mp hj with rfl | rfl
      · exact ne_of_mem_of_not_mem hi (h.notMem_childNodes p.first)
      · exact ne_of_mem_of_not_mem hi (h.notMem_childNodes p.second)
    leaf := fun j hj => by rw [Growth.merge_count_of_lt hn (by omega), h.leaf j hj]
    used := fun i hi => by
      rw [Growth.merge_isUsed _ _ _ hi, children]
      simp [h.used i hi, or_assoc]
    nonzero := fun i hi => by
      rw [children, List.mem_append, List.mem_pair] at hi
      rcases hi with hi | rfl | rfl
      · rw [count_child i hi]
        exact h.nonzero i hi
      · rwa [Growth.merge_count_of_lt hn halt]
      · rwa [Growth.merge_count_of_lt hn hblt]
    sums := fun k q hk => by
      rw [Growth.merge_pairs] at hk
      rcases getElem?_concat_cases hk with hk | ⟨rfl, rfl⟩
      · have hlt := (List.getElem?_eq_some_iff.mp hk).1
        rw [Growth.merge_count_of_lt hn (by omega), h.sums k q hk,
          count_child q.1.toNat (mem_childNodes.mpr ⟨k, q, false, hk, rfl⟩),
          count_child q.2.toNat (mem_childNodes.mpr ⟨k, q, true, hk, rfl⟩)]
      · rw [← hnum, Growth.merge_count_self hn, h.toNat_add_picks hrow p, toNat_a, toNat_b,
          Growth.merge_count_of_lt hn halt, Growth.merge_count_of_lt hn hblt]
    bounded := fun k hk => by
      rw [Growth.merge_pairs, List.length_append, List.length_singleton, Nat.lt_succ_iff_lt_or_eq] at hk
      rcases hk with hk | rfl
      · rw [Growth.merge_count_of_lt hn (by omega)]
        exact h.bounded k hk
      · rw [← hnum, Growth.merge_count_self hn, h.toNat_add_picks hrow p, ← h.total_picks p]
        omega
    total := h.merge_total hrow hn p
    merges := by
      have := h.card_merge_roots hrow hn p
      have := h.merges
      rw [Growth.merge_pairs, List.length_append, List.length_singleton]
      omega }

end

/-- The loop over a row ends in a state that has its pairs and its counts with the invariant, and one root at most: with
one pick alone the loop marks it used, and with 511 nodes it does not look for one (40_build.md R114). -/
theorem mergeLoop_grown {row : List Byte} (hrow : row.length = 256) (fuel : Nat) {g : Growth} (h : g.Grown row)
    (hfuel : 256 ≤ g.pairs.length + fuel) :
    ∃ u : Growth, u.Grown row ∧ u.roots.card ≤ 1 ∧ (mergeLoop fuel g).pairs = u.pairs ∧
      ∀ i, (mergeLoop fuel g).scratch.count i = u.scratch.count i := by
  induction fuel generalizing g with
  | zero =>
    have := h.size
    omega
  | succ fuel ih =>
    have hnum : g.numNodes = 256 + g.pairs.length := rfl
    have hle : g.numNodes ≤ 511 := by
      have := h.size
      omega
    rcases mergeLoop_cases fuel g with ⟨hfull, heq⟩ | ⟨_, ha, heq⟩ | ⟨a, _, ha, hb, heq⟩ | ⟨a, b, hn, ha, hb, heq⟩
    · have := h.merges
      have := nonzeroSymbols_le hrow
      exact ⟨g, h, by omega, by rw [heq], fun i => by rw [heq]⟩
    · have no_roots : g.roots = ∅ := Finset.filter_eq_empty_iff.mpr fun i hi =>
        (pickNode_eq_none_iff hle).mp ha i (Finset.mem_range.mp hi)
      exact ⟨g, h, by simp [no_roots], by rw [heq], fun i => by rw [heq]⟩
    · have one_root : g.roots ⊆ {a} := fun i hi => by
        obtain ⟨hlt, hunused, hcount⟩ := Growth.mem_roots.mp hi
        by_contra hne
        refine (pickNode_eq_none_iff hle).mp hb i hlt ⟨?_, hcount⟩
        rw [Scratch.isUsed_mark _ _ (by omega), hunused, beq_eq_false_iff_ne.mpr (by simpa using hne)]
        rfl
      have := (Finset.card_le_card one_root).trans (Finset.card_singleton a).le
      exact ⟨g, h, this, by rw [heq], fun i => by rw [heq]; rfl⟩
    · have hlt : g.numNodes < 511 := lt_of_le_of_ne hle hn
      have step := ih (h.merge hrow hlt (Growth.picks_of_pickNode hle ha hb))
        (by rw [Growth.merge_pairs, List.length_append, List.length_singleton]; omega)
      rw [heq]
      exact step

end Sys2Proof.Machine
end

section
/-! SUPPORT. What the build of one context leaves: the number of merges (40_build.md R114, R116), the counts (R115) and
the shape of the tree (R119). -/

namespace Sys2Proof.Machine

section
variable {row : List Byte} {g : Growth}

/-- No internal node's count is 0 (40_build.md R115): its first child's is not. -/
theorem Growth.Grown.internal_ne_zero (h : g.Grown row) {k : Nat} (hk : k < g.pairs.length) :
    g.scratch.count (256 + k) ≠ 0 := by
  have hp := List.getElem?_eq_getElem hk
  have hchild := h.nonzero _ (mem_childNodes.mpr ⟨k, _, false, hp, rfl⟩)
  have hsum := h.sums k _ hp
  rw [half_ne_zero_iff] at hchild ⊢
  exact hsum ▸ Nat.add_pos_left hchild _

/-- The node built last is a root. -/
theorem Growth.Grown.last_mem_roots (h : g.Grown row) (hlen : 0 < g.pairs.length) : g.numNodes - 1 ∈ g.roots := by
  have hnum : g.numNodes = 256 + g.pairs.length := rfl
  have hlast : g.numNodes - 1 = 256 + (g.pairs.length - 1) := by omega
  have := h.size
  refine Growth.mem_roots.mpr ⟨by omega, ?_, hlast ▸ h.internal_ne_zero (by omega)⟩
  rw [← Bool.not_eq_true, h.used _ (by omega)]
  intro hmem
  have := h.below.mem_childNodes_lt hmem
  omega

/-- With one root at most there was a merge for each nonzero count but one (40_build.md R114). -/
theorem Growth.Grown.length_eq (h : g.Grown row) (hroots : g.roots.card ≤ 1) :
    g.pairs.length = nonzeroSymbols row - 1 := by
  have hmerges := h.merges
  rcases Nat.eq_zero_or_pos g.pairs.length with hlen | hlen
  · omega
  · have := Finset.card_pos.mpr ⟨_, h.last_mem_roots hlen⟩
    omega

/-- With k >= 2 the one root left is the node built last (40_build.md R116). -/
theorem Growth.Grown.roots_eq (h : g.Grown row) (hroots : g.roots.card ≤ 1) (hk : 2 ≤ nonzeroSymbols row) :
    g.roots = {g.numNodes - 1} := by
  have hlen := h.length_eq hroots
  have hlast := h.last_mem_roots (by omega)
  exact Finset.eq_singleton_iff_unique_mem.mpr ⟨hlast, fun i hi => Finset.card_le_one.mp hroots i hi _ hlast⟩

/-- With k >= 2 the children are the nonzero leaves and the internal nodes below the root (40_build.md R119). -/
theorem Growth.Grown.mem_childNodes_iff (h : g.Grown row) (hroots : g.roots.card ≤ 1) (hk : 2 ≤ nonzeroSymbols row)
    (n : Nat) : n ∈ childNodes g.pairs ↔
      (n < 256 ∧ row[n]?.getD 0 ≠ 0) ∨ (256 ≤ n ∧ n < g.numNodes - 1) := by
  have hnum : g.numNodes = 256 + g.pairs.length := rfl
  have hsize := h.size
  have hlen := h.length_eq hroots
  have leaf : n < 256 → (g.scratch.count n ≠ 0 ↔ row[n]?.getD 0 ≠ 0) := fun hn => ne_zero_iff_of_toNat_eq (h.leaf n hn)
  have child_of_not_root : n < g.numNodes - 1 → g.scratch.count n ≠ 0 → n ∈ childNodes g.pairs := fun hn hcount => by
    by_contra hmem
    rw [← h.used n (by omega), Bool.not_eq_true] at hmem
    have hroot : n ∈ g.roots := Growth.mem_roots.mpr ⟨by omega, hmem, hcount⟩
    rw [h.roots_eq hroots hk, Finset.mem_singleton] at hroot
    omega
  constructor
  · intro hmem
    have := h.below.mem_childNodes_lt hmem
    rcases Nat.lt_or_ge n 256 with hn | hn
    · exact .inl ⟨hn, (leaf hn).mp (h.nonzero n hmem)⟩
    · exact .inr ⟨hn, by omega⟩
  · rintro (⟨hn, hcount⟩ | ⟨hn, hlast⟩)
    · exact child_of_not_root (by omega) ((leaf hn).mpr hcount)
    · refine child_of_not_root hlast ?_
      rw [← Nat.add_sub_cancel' hn]
      exact h.internal_ne_zero (by omega)

end

theorem Growth.numNodes_congr {g u : Growth} (h : g.pairs = u.pairs) : g.numNodes = u.numNodes := by
  rw [Growth.numNodes, h, ← Growth.numNodes]

/-- The build of a context leaves the pairs and the counts of a finished merge loop. -/
theorem buildContext_grown {row : List Byte} (hrow : row.length = 256) :
    ∃ u : Growth, u.Grown row ∧ u.roots.card ≤ 1 ∧ (buildContext row).pairs = u.pairs ∧
      ∀ i, (buildContext row).scratch.count i = u.scratch.count i :=
  mergeLoop_grown hrow 256 (grown_initContext hrow) le_rfl

/-- Settles O16: the trees grown number one less with each merge, and one is left. -/
theorem rootNumberIsGivenByNonzeroCounts : Obligations.RootNumberIsGivenByNonzeroCounts := by
  intro row hrow
  obtain ⟨u, hu, hroots, hpairs, _⟩ := buildContext_grown hrow
  have hlen := hu.length_eq hroots
  have hnum : (buildContext row).numNodes = 256 + u.pairs.length := by rw [← hpairs]; rfl
  rw [hpairs]
  refine ⟨hlen, hu.size, ?_⟩
  split <;> omega

/-- Settles O17. -/
theorem internalCountsNeverWrap : Obligations.InternalCountsNeverWrap := by
  intro row hrow k hk
  obtain ⟨u, hu, _, hpairs, hcount⟩ := buildContext_grown hrow
  have hk' : k < u.pairs.length := hpairs ▸ hk
  simp only [hcount, hpairs]
  exact ⟨hu.sums k _ (List.getElem?_eq_getElem hk'), hu.internal_ne_zero hk', (hu.bounded k hk').trans (rowSum_le hrow)⟩

/-- Settles O18: the roots' counts add up to the row's sum, and the root is the only one. -/
theorem rootCountIsTheRowSum : Obligations.RootCountIsTheRowSum := by
  intro row hrow hk
  obtain ⟨u, hu, hroots, hpairs, hcount⟩ := buildContext_grown hrow
  rw [hcount, Growth.numNodes_congr hpairs, ← hu.total, hu.roots_eq hroots hk, Finset.sum_singleton]

/-- Settles O19. -/
theorem everyNonzeroSymbolIsOneChild : Obligations.EveryNonzeroSymbolIsOneChild := by
  intro row hrow
  obtain ⟨u, hu, hroots, hpairs, _⟩ := buildContext_grown hrow
  rw [Growth.numNodes_congr hpairs, hpairs]
  refine ⟨hu.below, fun hk => ⟨hu.distinct, fun n => (hu.mem_childNodes_iff hroots hk n).trans (or_congr_left ?_)⟩⟩
  rw [← hrow, ← exists_prop]
  exact exists_congr fun hn => by rw [List.getElem?_eq_getElem hn, Option.getD_some]

end Sys2Proof.Machine
end

section
/-! SUPPORT. The codes of a context (40_build.md R120). A path is followed from its first bit to show that no code is
the beginning of another one, and from its last bit to show that a symbol has one code. -/

namespace Sys2Proof.Machine

section
variable {pairs : List (Node × Node)}

/-! Paths -/

theorem codePath_nil_iff {n : Node} {b : Byte} : CodePath pairs n [] b ↔ n = b.setWidth 9 :=
  ⟨fun h => by cases h; rfl, fun h => h ▸ .leaf b⟩

theorem codePath_cons_iff {n : Node} {bit : Bool} {code : List Bool} {b : Byte} :
    CodePath pairs n (bit :: code) b ↔
      256 ≤ n.toNat ∧ ∃ p, pairs[n.toNat - 256]? = some p ∧ CodePath pairs (childSide p bit) code b :=
  ⟨fun h => by cases h with | node _ p _ _ _ internal built below => exact ⟨internal, p, built, below⟩,
    fun ⟨internal, p, built, below⟩ => .node n p bit code b internal built below⟩

theorem toNat_leaf (b : Byte) : (b.setWidth 9).toNat = b.toNat := BitVec.toNat_setWidth_of_le (by decide)

/-- An empty path starts at a leaf. -/
theorem CodePath.lt_of_nil {n : Node} {b : Byte} (h : CodePath pairs n [] b) : n.toNat < 256 := by
  rw [codePath_nil_iff.mp h, toNat_leaf]
  exact b.isLt

/-- A path from the child that a bit leads to is one from the parent, with that bit before it. -/
theorem CodePath.from_parent {k : Nat} {p : Node × Node} {bit : Bool} {code : List Bool} {b : Byte} (hk : k ≤ 255)
    (hp : pairs[k]? = some p) (h : CodePath pairs (childSide p bit) code b) :
    CodePath pairs (BitVec.ofNat 9 (256 + k)) (bit :: code) b := by
  have hn : (BitVec.ofNat 9 (256 + k)).toNat = 256 + k := Nat.mod_eq_of_lt (by omega)
  exact codePath_cons_iff.mpr ⟨by omega, p, by rw [hn, Nat.add_sub_cancel_left, hp], h⟩

/-- No code is the beginning of another one: both follow the same bits to the same leaf. -/
theorem CodePath.eq_of_append {n : Node} {code tail : List Bool} {b b' : Byte} (h : CodePath pairs n code b)
    (h' : CodePath pairs n (code ++ tail) b') : tail = [] ∧ b' = b := by
  induction code generalizing n with
  | nil =>
    cases tail with
    | nil =>
      have hb := congrArg BitVec.toNat ((codePath_nil_iff.mp h').symm.trans (codePath_nil_iff.mp h))
      rw [toNat_leaf, toNat_leaf] at hb
      exact ⟨rfl, BitVec.eq_of_toNat_eq hb⟩
    | cons bit tail =>
      exact absurd (codePath_cons_iff.mp h').1 (Nat.not_le_of_lt h.lt_of_nil)
  | cons bit code ih =>
    obtain ⟨_, p, hp, hcode⟩ := codePath_cons_iff.mp h
    obtain ⟨_, q, hq, hcode'⟩ := codePath_cons_iff.mp h'
    cases hp.symm.trans hq
    exact ih hcode hcode'

/-- The rest of a path starts at a node that is lower by a bit at least for each bit passed. -/
theorem CodePath.of_append (hbelow : ChildrenBelow pairs) {n : Node} {pre code : List Bool} {b : Byte}
    (h : CodePath pairs n (pre ++ code) b) : ∃ m, CodePath pairs m code b ∧ m.toNat + pre.length ≤ n.toNat := by
  induction pre generalizing n with
  | nil => exact ⟨n, h, le_rfl⟩
  | cons bit pre ih =>
    obtain ⟨_, p, hp, hrest⟩ := codePath_cons_iff.mp h
    obtain ⟨m, hm, hle⟩ := ih hrest
    have := hbelow.childSide_lt hp bit
    exact ⟨m, hm, by rw [List.length_cons]; omega⟩

/-- A code that is not empty ends with the bit from an internal node to its leaf. -/
theorem CodePath.last_bit (hbelow : ChildrenBelow pairs) {n : Node} {code : List Bool} {b : Byte}
    (h : CodePath pairs n code b) (hcode : code ≠ []) :
    b.toNat ∈ childNodes pairs ∧ code.length + 255 ≤ n.toNat := by
  obtain ⟨pre, bit, rfl⟩ := (List.eq_nil_or_concat' code).resolve_left hcode
  obtain ⟨m, hm, hle⟩ := h.of_append hbelow
  obtain ⟨hinternal, p, hp, hleaf⟩ := codePath_cons_iff.mp hm
  refine ⟨mem_childNodes.mpr ⟨_, p, bit, hp, ?_⟩, ?_⟩
  · rw [codePath_nil_iff.mp hleaf, toNat_leaf]
  · rw [List.length_append, List.length_singleton]
    omega

/-- Followed from the leaf upwards, two paths of one length to one leaf are the same: each node has one parent. -/
theorem CodePath.eq_of_length_eq (hdistinct : (childNodes pairs).Nodup) {n m : Node} {code code' : List Bool} {b : Byte}
    (h : CodePath pairs n code b) (h' : CodePath pairs m code' b) (hlen : code.length = code'.length) :
    n = m ∧ code = code' := by
  induction code generalizing n m code' with
  | nil =>
    cases List.length_eq_zero_iff.mp hlen.symm
    exact ⟨(codePath_nil_iff.mp h).trans (codePath_nil_iff.mp h').symm, rfl⟩
  | cons bit code ih =>
    obtain ⟨bit', code', rfl⟩ := List.exists_cons_of_length_eq_add_one hlen.symm
    obtain ⟨hn, p, hp, hcode⟩ := codePath_cons_iff.mp h
    obtain ⟨hm, q, hq, hcode'⟩ := codePath_cons_iff.mp h'
    obtain ⟨hside, rfl⟩ := ih hcode hcode' (Nat.succ_injective hlen)
    obtain ⟨hk, rfl⟩ := childSide_inj hdistinct hp hq hside
    exact ⟨BitVec.eq_of_toNat_eq (by omega), rfl⟩

/-- A leaf has one code from a node: a longer one would pass through the node again, lower down. -/
theorem CodePath.code_unique (hbelow : ChildrenBelow pairs) (hdistinct : (childNodes pairs).Nodup) {n : Node}
    {code code' : List Bool} {b : Byte} (h : CodePath pairs n code b) (h' : CodePath pairs n code' b) :
    code' = code := by
  wlog hle : code.length ≤ code'.length generalizing code code'
  · exact (this h' h (Nat.le_of_not_le hle)).symm
  rw [← List.take_append_drop (code'.length - code.length) code'] at h' ⊢
  obtain ⟨m, hm, hlow⟩ := h'.of_append hbelow
  obtain ⟨rfl, hcode⟩ := CodePath.eq_of_length_eq hdistinct h hm (by rw [List.length_drop]; omega)
  have hpre : (code'.take (code'.length - code.length)).length = 0 := by omega
  rw [List.length_eq_zero_iff.mp hpre, List.nil_append, ← hcode]

/-- From an internal node every path can be led up to the root, parent after parent. -/
theorem CodePath.climb_to_root (hbelow : ChildrenBelow pairs) {root : Node} (hroot : root.toNat = 255 + pairs.length)
    (hinner : ∀ n, 256 ≤ n → n < root.toNat → n ∈ childNodes pairs) {n : Node} {code : List Bool} {b : Byte}
    (h : CodePath pairs n code b) (hn : 256 ≤ n.toNat) (hle : n.toNat ≤ root.toNat) :
    ∃ code', CodePath pairs root code' b := by
  induction hd : root.toNat - n.toNat using Nat.strong_induction_on generalizing n code with
  | _ d ih =>
    rcases hle.lt_or_eq with hlt | heq
    · obtain ⟨k, p, bit, hp, hside⟩ := mem_childNodes.mp (hinner _ hn hlt)
      have hk := (List.getElem?_eq_some_iff.mp hp).1
      have hchild := hbelow.childSide_lt hp bit
      have hroot' := root.isLt
      have hparent : (BitVec.ofNat 9 (256 + k)).toNat = 256 + k := Nat.mod_eq_of_lt (by omega)
      rw [← BitVec.eq_of_toNat_eq hside] at h
      exact ih _ (by omega) (h.from_parent (by omega) hp) (by omega) (by omega) rfl
    · exact ⟨code, BitVec.eq_of_toNat_eq heq ▸ h⟩

/-- Every leaf that is a child has a code from the root. -/
theorem exists_codePath_of_mem_childNodes (hbelow : ChildrenBelow pairs) {root : Node}
    (hroot : root.toNat = 255 + pairs.length) (hinner : ∀ n, 256 ≤ n → n < root.toNat → n ∈ childNodes pairs) {b : Byte}
    (hb : b.toNat ∈ childNodes pairs) : ∃ code, CodePath pairs root code b := by
  obtain ⟨k, p, bit, hp, hside⟩ := mem_childNodes.mp hb
  have hk := (List.getElem?_eq_some_iff.mp hp).1
  have hroot' := root.isLt
  have hparent : (BitVec.ofNat 9 (256 + k)).toNat = 256 + k := Nat.mod_eq_of_lt (by omega)
  have hleaf : childSide p bit = b.setWidth 9 := BitVec.eq_of_toNat_eq (hside.trans (toNat_leaf b).symm)
  exact (CodePath.from_parent (by omega) hp (codePath_nil_iff.mpr hleaf)).climb_to_root hbelow hroot hinner
    (by omega) (by omega)

end

/-! The codes of a row -/

theorem Growth.numNodes_pred (g : Growth) : g.numNodes - 1 = 255 + g.pairs.length := by
  simp only [Growth.numNodes, Config.nsym]
  omega

/-- The root of a built context is its last node number in use (40_build.md R116). -/
theorem toNat_root (row : List Byte) :
    (BitVec.ofNat 9 ((buildContext row).numNodes - 1)).toNat = 255 + (buildContext row).pairs.length := by
  have := (buildContext_pairs_bounded row).1
  rw [Growth.numNodes_pred]
  exact Nat.mod_eq_of_lt (by omega)

/-- Settles O20: the tree of a row (40_build.md R119) has one code for each leaf that is a child, and no other. -/
theorem codesAreUniqueAndPrefixFree : Obligations.CodesAreUniqueAndPrefixFree := by
  intro row hrow hk
  obtain ⟨hbelow, htree⟩ := everyNonzeroSymbolIsOneChild row hrow
  obtain ⟨hdistinct, hchildren⟩ := htree hk
  obtain ⟨hlen, hle, _⟩ := rootNumberIsGivenByNonzeroCounts row hrow
  have hroot := toNat_root row
  simp only [Growth.numNodes_pred] at hroot hchildren ⊢
  generalize BitVec.ofNat 9 (255 + (buildContext row).pairs.length) = root at hroot ⊢
  have child_iff : ∀ b : Byte, b.toNat ∈ childNodes (buildContext row).pairs ↔ row[b.toNat]? ≠ some 0 := fun b => by
    have hb : b.toNat < row.length := hrow ▸ b.isLt
    have hleaf := Nat.not_le_of_lt b.isLt
    refine (hchildren b.toNat).trans ?_
    simp [hb, hleaf]
  have nonempty : ∀ {code b}, CodePath (buildContext row).pairs root code b → code ≠ [] := by
    rintro _ b h rfl
    have := h.lt_of_nil
    omega
  refine ⟨fun b hb => ?_, fun b hb code h => ?_, fun b b' code tail h h' => h.eq_of_append h'⟩
  · obtain ⟨code, h⟩ := exists_codePath_of_mem_childNodes hbelow hroot
      (fun n hn hlt => (hchildren n).mpr (.inr ⟨hn, hroot ▸ hlt⟩)) ((child_iff b).mpr hb)
    have hpos := List.length_pos_iff.mpr (nonempty h)
    have hlast := (h.last_bit hbelow (nonempty h)).2
    exact ⟨code, h, hpos, by omega, fun code' h' => h.code_unique hbelow hdistinct h'⟩
  · exact (child_iff b).mp (h.last_bit hbelow (nonempty h)).1 hb

end Sys2Proof.Machine
end

section
/-! SUPPORT. The frames of BUILD and of the accepting transaction: what a command's CMD write and BUILD's block step
leave unchanged (40_build.md R110, 41_decode.md R140, 42_control.md R170). -/

namespace Sys2Proof.Machine

/-! A command's CMD write -/

/-- BUILD's CMD write changes the sequencer, the flags, the record of races and the datapath at most. -/
theorem exec_build_frame {s t : State} (h : exec .build s = .next t) :
    t = { s with seq := t.seq, done := t.done, overread := t.overread, underread := t.underread, dropped := t.dropped,
                 err := t.err, raced := t.raced, dp := t.dp, draws := t.draws } := by
  cases h
  unfold State.submit State.buildAccept
  split_ifs <;> rfl

/-- DECODE's CMD write changes IN_LEN_L and the result registers besides. -/
theorem exec_decode_frame {s t : State} (h : exec .decode s = .next t) :
    t = { s with seq := t.seq, done := t.done, overread := t.overread, underread := t.underread, dropped := t.dropped,
                 err := t.err, raced := t.raced, dp := t.dp, draws := t.draws, inLenL := t.inLenL,
                 outCount := t.outCount, outLen := t.outLen, consumed := t.consumed } := by
  cases h
  unfold State.submit
  split
  · rfl
  · unfold State.decodeAccept
    rcases State.decodeChecks_cases
        { s.accept with inLenL := s.accept.inLen, outCount := 0, outLen := 0, consumed := 0 } with
      ⟨_, h⟩ | ⟨_, _, h⟩ | ⟨_, _, _, h⟩ | ⟨_, _, _, _, h⟩ | ⟨_, _, _, _, h⟩ <;> rw [h] <;> rfl

/-- RELEASE's CMD write changes TABLE_VALID besides. -/
theorem exec_release_frame {s t : State} (h : exec .release s = .next t) :
    t = { s with seq := t.seq, done := t.done, overread := t.overread, underread := t.underread, dropped := t.dropped,
                 err := t.err, raced := t.raced, dp := t.dp, draws := t.draws, tableValid := t.tableValid } := by
  cases h
  unfold State.submit
  split <;> rfl

/-- Settles O7. -/
theorem commandWriteFrame : Obligations.CommandWriteFrame := by
  intro s t i h
  cases i with
  | build =>
    rw [exec_build_frame h]
    exact ⟨fun _ => rfl, rfl, rfl, rfl, rfl, rfl, rfl, rfl, rfl, rfl, rfl, rfl, rfl, fun _ => rfl,
      fun _ => ⟨rfl, rfl, rfl, rfl⟩⟩
  | decode =>
    rw [exec_decode_frame h]
    exact ⟨fun _ => rfl, rfl, rfl, rfl, rfl, rfl, rfl, rfl, rfl, rfl, rfl, rfl, rfl, fun _ => rfl,
      fun hi => absurd rfl hi⟩
  | release =>
    rw [exec_release_frame h]
    exact ⟨fun _ => rfl, rfl, rfl, rfl, rfl, rfl, rfl, rfl, rfl, rfl, rfl, rfl, rfl, fun hi => absurd rfl hi,
      fun _ => ⟨rfl, rfl, rfl, rfl⟩⟩

/-! BUILD -/

/-- Settles O9. -/
theorem buildAcceptedEntersContextZero : Obligations.BuildAcceptedEntersContextZero :=
  fun _ hb ht => exec_build_of_idle hb ht

/-- Settles O12: a block step is the store of its context, and for context 255 the completion after it. -/
theorem buildStepFrame : Obligations.BuildStepFrame := by
  intro s c h
  by_cases hc : c = 255
  · rw [State.blockStep_of_build_last (hc ▸ h)]
    exact ⟨fun _ => rfl, rfl, rfl, rfl, rfl, rfl, rfl, rfl, rfl, rfl, rfl, rfl, rfl, rfl, rfl, rfl, rfl⟩
  · rw [State.blockStep_of_build h hc]
    exact ⟨fun _ => rfl, rfl, rfl, rfl, rfl, rfl, rfl, rfl, rfl, rfl, rfl, rfl, rfl, rfl, rfl, rfl, rfl⟩

end Sys2Proof.Machine
end

section
/-! SUPPORT. What one block step of DECODE does: the bit slot at an internal node and at a leaf, the fetch before slot 0,
the two ends of a walk at slot 0, and what every slot leaves unchanged (41_decode.md R140, R145 to R149, R153, R156). -/

namespace Sys2Proof.Machine

/-! One bit slot -/

/-- A leaf's node number is its byte (41_decode.md R146). -/
@[simp] theorem setWidth_setWidth_leaf (c : Byte) : (c.setWidth 9).setWidth 8 = c :=
  BitVec.eq_of_toNat_eq (by simp)

theorem toNat_leaf_lt (c : Byte) : (c.setWidth 9).toNat < 256 := (toNat_leaf c).trans_lt c.isLt

/-- A built slot of CHILD holds the pair's child. -/
theorem State.childOf_of_built {s : State} {c : Byte} {n : Node} {p : Node × Node} (hn : 256 ≤ n.toNat)
    (hp : s.child[c.toNat][n.toNat - 256]? = some p) (b : Bool) : s.childOf c n b = childSide p b := by
  have hpair : s.builtPair c n = some p := (if_neg (Nat.not_lt.mpr hn)).trans hp
  rw [State.childOf, hpair]

theorem State.slotStep_of_internal {s : State} (h : 256 ≤ s.dp.node.toNat) : s.slotStep = s.bitStep :=
  if_neg (Nat.not_lt.mpr h)

/-- At a leaf with more bytes owed, whose context has an internal root, the slot emits, switches and uses its bit. -/
theorem State.slotStep_of_leaf {s : State} (h : s.dp.node.toNat < 256) (hrem : s.dp.rem ≠ 1)
    (hroot : 256 ≤ (s.rootOf (s.dp.node.setWidth 8)).toNat) : s.slotStep = s.emitLeaf.switchContext.bitStep :=
  (if_pos h).trans <| (if_neg fun h0 => hrem (sub_eq_zero.mp h0)).trans (if_neg (Nat.not_lt.mpr hroot))

theorem State.slotStep_of_last_leaf {s : State} (h : s.dp.node.toNat < 256) (hrem : s.dp.rem = 1) :
    s.slotStep = s.emitLeaf.walkFinish :=
  (if_pos h).trans (if_pos (sub_eq_zero.mpr hrem))

/-- Settles O29. -/
theorem bitSelectsTheChild : Obligations.BitSelectsTheChild := by
  intro s h
  rw [State.slotStep_of_internal h]
  exact ⟨rfl, fun p hp => State.childOf_of_built h hp _⟩

/-! The emission of a leaf -/

/-- The byte that the emission of a leaf stores: the leaf's, or a draw where the host raced (R236). -/
def State.leafByte (s : State) : Byte :=
  if outAddr s.dp.e.toNat ∈ s.raced then drawBits 8 s.draws else s.dp.node.setWidth 8

theorem State.leafByte_of_not_raced {s : State} (h : outAddr s.dp.e.toNat ∉ s.raced) :
    s.leafByte = s.dp.node.setWidth 8 := if_neg h

@[simp] theorem State.readByte_emitLeaf_self (s : State) : s.emitLeaf.readByte (outAddr s.dp.e.toNat) = s.leafByte :=
  s.readByte_writeByte_self _ s.leafByte

theorem State.readByte_emitLeaf_ne (s : State) {a : Nat} (h : a ≠ outAddr s.dp.e.toNat) :
    s.emitLeaf.readByte a = s.readByte a :=
  s.readByte_writeByte_ne s.leafByte h

/-- Settles O30. -/
theorem leafIsEmittedAndSwitchesContext : Obligations.LeafIsEmittedAndSwitchesContext := by
  intro s c hnode hrem hroot
  have hleaf : s.dp.node.toNat < 256 := hnode ▸ toNat_leaf_lt c
  obtain rfl : s.dp.node.setWidth 8 = c := by rw [hnode, setWidth_setWidth_leaf]
  rw [State.slotStep_of_leaf hleaf hrem hroot]
  exact ⟨s.leafByte, s.draws + 1, rfl, s.readByte_emitLeaf_self, State.leafByte_of_not_raced,
    fun _ ha => s.readByte_emitLeaf_ne ha⟩

/-- Settles O32: the completion follows the emission, and leaves memory as it is. -/
theorem lastLeafCompletesTheBlock : Obligations.LastLeafCompletesTheBlock := by
  intro s c hnode hrem
  have hleaf : s.dp.node.toNat < 256 := hnode ▸ toNat_leaf_lt c
  obtain rfl : s.dp.node.setWidth 8 = c := by rw [hnode, setWidth_setWidth_leaf]
  rw [State.slotStep_of_last_leaf hleaf hrem]
  exact ⟨s.leafByte, _, _, rfl, s.readByte_emitLeaf_self, State.leafByte_of_not_raced,
    fun _ ha => s.readByte_emitLeaf_ne ha⟩

/-! The block step -/

theorem State.blockStep_of_decode {s : State} (h : s.seq = .decode) : s.blockStep = s.decodeStep := by
  rw [State.blockStep, h]

theorem State.decodeStep_of_slot_ne_zero {s : State} (h : s.dp.slot ≠ 0) : s.decodeStep = s.slotStep := if_neg h

theorem State.decodeStep_of_none_owed {s : State} (h : s.dp.slot = 0) (hrem : s.dp.rem = 0) :
    s.decodeStep = s.walkFinish := (if_pos h).trans (if_pos hrem)

theorem State.decodeStep_of_buffer_end {s : State} (h : s.dp.slot = 0) (hrem : s.dp.rem ≠ 0)
    (hoff : s.params.inSize ≤ s.dp.off.toNat) : s.decodeStep = s.walkError .inputExhausted :=
  (if_pos h).trans <| (if_neg hrem).trans (if_pos hoff)

theorem State.decodeStep_of_fetch {s : State} (h : s.dp.slot = 0) (hrem : s.dp.rem ≠ 0)
    (hoff : s.dp.off.toNat < s.params.inSize) : s.decodeStep = s.fetchByte.slotStep :=
  (if_pos h).trans <| (if_neg hrem).trans (if_neg (Nat.not_le.mpr hoff))

/-- A fetch below IN_LEN_L that no host write raced with gives the block's byte (20_memory.md R71). -/
theorem State.fetch_of_block {s : State} {o : Nat} (h : o < s.inLenL.toNat) (hraced : inAddr o ∉ s.raced) :
    s.fetch o = s.readByte (inAddr o) := (if_pos h).trans (if_neg hraced)

/-- Any other fetch gives a draw (20_memory.md R71, 70_reset_and_hazards.md R236). -/
theorem State.fetch_of_free {s : State} {o : Nat} (h : s.inLenL.toNat ≤ o ∨ inAddr o ∈ s.raced) :
    s.fetch o = drawBits 8 s.draws := by
  rcases h with h | h
  · exact if_neg (Nat.not_lt.mpr h)
  · rw [State.fetch, State.readIn, if_pos h, ite_self]

/-- Settles O27. -/
theorem passBeginsWithAFetch : Obligations.PassBeginsWithAFetch := by
  intro s hseq
  rw [State.blockStep_of_decode hseq]
  refine ⟨State.decodeStep_of_slot_ne_zero, fun hslot hrem hoff => ?_⟩
  exact ⟨s.fetch s.dp.off.toNat, s.draws + 1, State.decodeStep_of_fetch hslot hrem hoff, State.fetch_of_block,
    fun h => ⟨s.draws, State.fetch_of_free h⟩⟩

/-- Settles O28. -/
theorem fetchAtBufferEndIsExhausted : Obligations.FetchAtBufferEndIsExhausted := by
  intro s hseq hslot hrem hoff
  rw [State.blockStep_of_decode hseq, State.decodeStep_of_buffer_end hslot hrem hoff]
  exact ⟨_, _, rfl⟩

/-! What a step leaves unchanged -/

/-- A bit slot changes the sequencer, the flags, OUT_LEN, CONSUMED, the datapath, memory and the bookkeeping of races and
draws at most. -/
theorem State.slotStep_frame (s : State) :
    s.slotStep = { s with seq := s.slotStep.seq, done := s.slotStep.done, overread := s.slotStep.overread,
                          underread := s.slotStep.underread, err := s.slotStep.err, outLen := s.slotStep.outLen,
                          consumed := s.slotStep.consumed, dp := s.slotStep.dp, mem := s.slotStep.mem,
                          raced := s.slotStep.raced, draws := s.slotStep.draws } := by
  rcases s.slotStep_cases with ⟨_, h⟩ | ⟨_, _, h⟩ | ⟨_, _, _, h⟩ | ⟨_, _, _, h⟩ <;> rw [h] <;> rfl

/-- A block step of DECODE changes no more than a bit slot can. -/
theorem State.decodeStep_frame (s : State) :
    s.decodeStep = { s with seq := s.decodeStep.seq, done := s.decodeStep.done, overread := s.decodeStep.overread,
                            underread := s.decodeStep.underread, err := s.decodeStep.err,
                            outLen := s.decodeStep.outLen, consumed := s.decodeStep.consumed, dp := s.decodeStep.dp,
                            mem := s.decodeStep.mem, raced := s.decodeStep.raced, draws := s.decodeStep.draws } := by
  rcases s.decodeStep_cases with ⟨_, h⟩ | ⟨_, _, h⟩ | ⟨_, _, _, h⟩ | ⟨_, _, _, h⟩ <;> rw [h]
  · exact s.slotStep_frame
  · rfl
  · rfl
  · exact s.fetchByte.slotStep_frame

/-- A bit slot writes no byte but OUT[E] (41_decode.md R154). -/
theorem State.readByte_slotStep_ne (s : State) {a : Nat} (ha : a ≠ outAddr s.dp.e.toNat) :
    s.slotStep.readByte a = s.readByte a := by
  rcases s.slotStep_cases with ⟨_, h⟩ | ⟨_, _, h⟩ | ⟨_, _, _, h⟩ | ⟨_, _, _, h⟩ <;> rw [h]
  · rfl
  · exact s.readByte_emitLeaf_ne ha
  · exact s.readByte_emitLeaf_ne ha
  · exact s.readByte_emitLeaf_ne ha

/-- A block step of DECODE writes no byte but OUT[E] (41_decode.md R154). -/
theorem State.readByte_decodeStep_ne (s : State) {a : Nat} (ha : a ≠ outAddr s.dp.e.toNat) :
    s.decodeStep.readByte a = s.readByte a := by
  rcases s.decodeStep_cases with ⟨_, h⟩ | ⟨_, _, h⟩ | ⟨_, _, _, h⟩ | ⟨_, _, _, h⟩ <;> rw [h]
  · exact s.readByte_slotStep_ne ha
  · rfl
  · rfl
  · exact s.fetchByte.readByte_slotStep_ne ha

/-- Settles O34: the frame of a block step, with its one byte stated apart. -/
theorem decodeStepFrame : Obligations.DecodeStepFrame := by
  intro s hseq
  have hbytes := fun a => s.readByte_decodeStep_ne (a := a)
  rw [State.blockStep_of_decode hseq]
  rw [s.decodeStep_frame] at hbytes ⊢
  exact ⟨rfl, rfl, rfl, rfl, rfl, hbytes, rfl, rfl, rfl, rfl, rfl, rfl, rfl, rfl, rfl, rfl⟩

/-! The acceptance of a block -/

/-- With every check passed the walk starts (41_decode.md R144). -/
theorem State.decodeChecks_of_accepted {s : State} (ht : s.tableValid = true) (hle : s.inLenL.toNat ≤ s.params.inSize)
    (hge : 4 ≤ s.inLenL.toNat) (hcount : s.headerCount.toNat ≤ s.params.outSize) :
    s.decodeChecks = State.walkStart { s with outCount := s.headerCount } s.headerCount := by
  rcases s.decodeChecks_cases with ⟨hf, _⟩ | ⟨_, h, _⟩ | ⟨_, _, h, _⟩ | ⟨_, _, _, h, _⟩ | ⟨_, _, _, _, h⟩
  · rw [ht] at hf; cases hf
  · omega
  · omega
  · omega
  · exact h

/-- Settles O26. -/
theorem decodeAcceptedStartsTheWalk : Obligations.DecodeAcceptedStartsTheWalk := by
  intro s hb ht hle hge hcount
  have hchecks := State.decodeChecks_of_accepted
    (s := { s.accept with inLenL := s.inLen, outCount := 0, outLen := 0, consumed := 0 }) ht hle hge hcount
  rw [exec, execDecode, State.submit_of_idle hb]
  exact congrArg Host.Outcome.next hchecks

/-- Settles O33: the walk that the acceptance starts owes no byte, so its first step completes. -/
theorem emptyBlockCompletesWithoutAFetch : Obligations.EmptyBlockCompletesWithoutAFetch := by
  intro s hb ht hle hge hcount
  refine ⟨_, decodeAcceptedStartsTheWalk s hb ht hle hge (by simp [hcount]), ?_⟩
  rw [State.blockStep_of_decode rfl, State.decodeStep_of_none_owed rfl hcount]
  refine ⟨rfl, rfl, rfl, rfl, hcount, rfl, ?_, rfl, rfl⟩
  exact decide_eq_false (show ¬ 4 > s.inLen.toNat + 1 by omega)

end Sys2Proof.Machine
end

section
/-! SUPPORT. The run of DECODE: from a legal state it ends within one block step for each bit slot left in IN and one more
(41_decode.md R150, 70_reset_and_hazards.md R240), it writes OUT[0..OUT_LEN-1] alone (R154), and a success leaves
OUT_LEN = OUT_COUNT (R151). -/

namespace Sys2Proof.Machine

/-! The slots left -/

theorem slot_succ_toNat (slot : BitVec 3) : (slot + 1).toNat = (slot.toNat + 1) % 8 := BitVec.toNat_add _ _

/-- The bit slots left from `s` on: the rest of the byte in hand and the bytes of IN not yet fetched. -/
def State.slotsLeft (s : State) : Nat := 8 * (s.params.inSize - s.dp.off.toNat) + (8 - s.dp.slot.toNat) % 8

/-- A bit slot that does not end the walk leaves the later slots of its byte. -/
theorem State.slotsLeft_slotStep {s : State} (h : s.slotStep.seq ≠ .idle) :
    s.slotStep.slotsLeft = 8 * (s.params.inSize - s.dp.off.toNat) + (7 - s.dp.slot.toNat) := by
  have later : (8 - (s.dp.slot + 1).toNat) % 8 = 7 - s.dp.slot.toNat := by
    rw [slot_succ_toNat]
    omega
  rcases s.slotStep_cases with ⟨_, hs⟩ | ⟨_, _, hs⟩ | ⟨_, _, _, hs⟩ | ⟨_, _, _, hs⟩ <;> rw [hs] at h ⊢
  · exact congrArg _ later
  · exact absurd rfl h
  · exact absurd rfl h
  · exact congrArg _ later

/-- The fetch that a slot begins with: at slot 0 of a pass, and at no other. -/
def State.loadByte (s : State) : State := if s.dp.slot = 0 then s.fetchByte else s

theorem State.loadByte_of_slot_ne_zero {s : State} (h : s.dp.slot ≠ 0) : s.loadByte = s := if_neg h

theorem State.loadByte_of_slot_zero {s : State} (h : s.dp.slot = 0) : s.loadByte = s.fetchByte := if_pos h

/-- A fetch below the end of the buffer counts OFF up and does not wrap it. -/
theorem State.Legal.off_succ {s : State} (h : s.Legal) (hoff : s.dp.off.toNat < s.params.inSize) :
    (s.dp.off + 1).toNat = s.dp.off.toNat + 1 := by
  obtain ⟨_, hin, _⟩ := Params.bounds_of_wellFormed h.params
  generalize s.params.inSize = m at *
  bv_omega

/-- Everything a block step of a legal walk can do: complete, find the buffer's end, or load a byte and do the slot. -/
theorem State.Legal.decodeStep_cases {s : State} (h : s.Legal) (hseq : s.seq = .decode) :
    (s.dp.rem = 0 ∧ s.decodeStep = s.walkFinish) ∨
      (s.dp.slot = 0 ∧ s.params.inSize ≤ s.dp.off.toNat ∧ s.decodeStep = s.walkError .inputExhausted) ∨
      (s.loadByte.MidPass ∧ s.decodeStep = s.loadByte.slotStep) := by
  have hw := h.walking hseq
  have hf := h.flagsClear (by simp [hseq])
  rcases s.decodeStep_cases with ⟨hslot, hd⟩ | ⟨_, hrem, hd⟩ | ⟨hslot, _, hoff, hd⟩ | ⟨hslot, hrem, hoff, hd⟩
  · obtain ⟨hrem, hoff⟩ := hw.midByte hslot
    rw [State.loadByte_of_slot_ne_zero hslot]
    exact .inr (.inr ⟨⟨h.sound, hf, hseq, hw, hrem, hoff⟩, hd⟩)
  · exact .inl ⟨hrem, hd⟩
  · exact .inr (.inl ⟨hslot, hoff, hd⟩)
  · rw [State.loadByte_of_slot_zero hslot]
    exact .inr (.inr ⟨hw.fetchByte h.sound hf hseq hrem hoff, hd⟩)

/-- A block step that does not end the walk uses up a bit slot. -/
theorem State.Legal.slotsLeft_decodeStep_lt {s : State} (h : s.Legal) (hd : s.decodeStep.seq ≠ .idle) :
    s.decodeStep.slotsLeft < s.slotsLeft := by
  rcases s.decodeStep_cases with ⟨hslot, hs⟩ | ⟨_, _, hs⟩ | ⟨_, _, _, hs⟩ | ⟨hslot, _, hoff, hs⟩ <;> rw [hs] at hd ⊢
  · have hpos : s.dp.slot.toNat ≠ 0 := fun h0 => hslot (BitVec.eq_of_toNat_eq h0)
    rw [State.slotsLeft_slotStep hd, State.slotsLeft]
    omega
  · exact absurd rfl hd
  · exact absurd rfl hd
  · have hnext := h.off_succ hoff
    rw [State.slotsLeft_slotStep hd, State.slotsLeft]
    simp only [State.fetchByte_params, State.fetchByte_dp, hnext, hslot]
    omega

/-- The header of a block takes slots away: fewer are left than IN has bits. -/
theorem State.Legal.slotsLeft_lt {s : State} (h : s.Legal) (hseq : s.seq = .decode) :
    s.slotsLeft < 8 * s.params.inSize := by
  obtain ⟨hlow, hhigh⟩ := (h.walking hseq).offset
  simp only [Config.hdr] at hlow
  rw [State.slotsLeft]
  omega

/-! The run -/

/-- The walk goes on with `P`, or the command has ended with `Q`. -/
def State.GoesOnOrEnds (P Q : State → Prop) (s : State) : Prop := (s.seq = .decode ∧ P s) ∨ (s.seq = .idle ∧ Q s)

/-- A DECODE in progress ends: when every block step keeps `P` until it ends with `Q`, the run from a state of `P` ends
with `Q`, one step after the slots left at the latest. -/
theorem State.Legal.runBlock_decode_ends {P Q : State → Prop}
    (hstep : ∀ u : State, u.Legal → u.seq = .decode → P u → u.decodeStep.GoesOnOrEnds P Q) {s : State} (h : s.Legal)
    (hseq : s.seq = .decode) (hP : P s) : ∃ n ≤ s.slotsLeft + 1, (runBlock n s).seq = .idle ∧ Q (runBlock n s) := by
  induction hm : s.slotsLeft using Nat.strong_induction_on generalizing s with
  | _ m ih =>
    have hlegal := h.decodeStep hseq
    rcases hstep s h hseq hP with ⟨hseq', hP'⟩ | hend
    · have hlt := h.slotsLeft_decodeStep_lt (by simp [hseq'])
      obtain ⟨n, hn, hend⟩ := ih _ (hm ▸ hlt) hlegal hseq' hP' rfl
      refine ⟨n + 1, by omega, ?_⟩
      rwa [runBlock_succ, State.blockStep_of_decode hseq]
    · refine ⟨1, by omega, ?_⟩
      rwa [runBlock_succ, runBlock_zero, State.blockStep_of_decode hseq]

/-! What a run of DECODE leaves -/

/-- `u` is a walk over the block of `s`: it has written OUT[0..E-1] alone. -/
structure State.WalkOf (s u : State) : Prop where
  outCount : u.outCount = s.headerCount
  written : ∀ a, a < outAddr 0 ∨ outAddr u.dp.e.toNat ≤ a → u.readByte a = s.readByte a

/-- `u` is the end of a walk over the block of `s`: one of the three ways of 41_decode.md R150, with what it leaves. -/
structure State.WalkResult (s u : State) : Prop where
  done : u.done = true
  err : u.err = .none ∨ u.err = .degenerateRoot ∨ u.err = .inputExhausted
  outCount : u.outCount = s.headerCount
  outLen_le : u.outLen.toNat ≤ s.headerCount.toNat
  outLen_eq : u.err = .none → u.outLen.toNat = s.headerCount.toNat
  written : ∀ a, a < outAddr 0 ∨ outAddr u.outLen.toNat ≤ a → u.readByte a = s.readByte a

section
variable {s u : State}

/-- A walk that owes no byte succeeds with all of them emitted. -/
theorem State.WalkOf.walkFinish (h : s.WalkOf u) (he : u.dp.e.toNat = u.outCount.toNat) :
    s.WalkResult u.walkFinish := by
  rw [h.outCount] at he
  exact ⟨rfl, .inl rfl, h.outCount, he.le, fun _ => he, h.written⟩

/-- A walk's error leaves what was emitted. -/
theorem State.WalkOf.walkError (h : s.WalkOf u) (he : u.dp.e.toNat ≤ u.outCount.toNat) {e : ErrCode}
    (herr : e = .degenerateRoot ∨ e = .inputExhausted) : s.WalkResult (u.walkError e) := by
  rw [h.outCount] at he
  refine ⟨rfl, .inr herr, h.outCount, he, fun hnone => ?_, h.written⟩
  rcases herr with rfl | rfl <;> cases hnone

/-- A fetch writes nothing. -/
theorem State.WalkOf.loadByte (h : s.WalkOf u) : s.WalkOf u.loadByte := by
  unfold State.loadByte
  split
  · exact ⟨h.outCount, h.written⟩
  · exact h

/-- The emission of a leaf extends what is written by one byte. -/
theorem State.WalkOf.emitLeaf (h : s.WalkOf u) (hm : u.MidPass) : s.WalkOf u.emitLeaf := by
  obtain ⟨_, he, _⟩ := hm.emit_counts
  refine ⟨h.outCount, fun a ha => ?_⟩
  rw [State.emitLeaf_dp, he] at ha
  simp only [outAddr] at ha
  rw [u.readByte_emitLeaf_ne (by simp only [outAddr]; omega)]
  exact h.written a (by simp only [outAddr]; omega)

/-- One bit slot keeps what a walk has written, or ends it with its result. -/
theorem State.WalkOf.slotStep (h : s.WalkOf u) (hm : u.MidPass) :
    u.slotStep.GoesOnOrEnds s.WalkOf s.WalkResult := by
  have hemit := h.emitLeaf hm
  obtain ⟨_, he, hr⟩ := hm.emit_counts
  have hsum := hm.walking.owed.2
  rcases u.slotStep_cases with ⟨_, hs⟩ | ⟨_, hlast, hs⟩ | ⟨_, _, _, hs⟩ | ⟨_, _, _, hs⟩ <;> rw [hs]
  · exact .inl ⟨hm.seq, h.outCount, h.written⟩
  · have hnone : (u.dp.rem - 1).toNat = 0 := congrArg BitVec.toNat hlast
    exact .inr ⟨rfl, hemit.walkFinish (show (u.dp.e + 1).toNat = u.outCount.toNat by omega)⟩
  · exact .inr ⟨rfl, State.WalkOf.walkError (u := u.emitLeaf.switchContext) ⟨hemit.outCount, hemit.written⟩
      (show (u.dp.e + 1).toNat ≤ u.outCount.toNat by omega) (.inl rfl)⟩
  · exact .inl ⟨hm.seq, hemit.outCount, hemit.written⟩

/-- One block step keeps what a walk has written, or ends it with its result. -/
theorem State.WalkOf.decodeStep (h : s.WalkOf u) (hlegal : u.Legal) (hseq : u.seq = .decode) :
    u.decodeStep.GoesOnOrEnds s.WalkOf s.WalkResult := by
  have hsum := (hlegal.walking hseq).owed.2
  rcases hlegal.decodeStep_cases hseq with ⟨hrem, hd⟩ | ⟨_, _, hd⟩ | ⟨hm, hd⟩ <;> rw [hd]
  · have hnone : u.dp.rem.toNat = 0 := congrArg BitVec.toNat hrem
    exact .inr ⟨rfl, h.walkFinish (by omega)⟩
  · exact .inr ⟨rfl, h.walkError (hsum ▸ Nat.le_add_right _ _) (.inr rfl)⟩
  · exact h.loadByte.slotStep hm

end

/-- A command's CMD write keeps the machine legal. -/
theorem State.Legal.exec {s t : State} {i : Instr} (h : s.Legal) (ht : exec i s = .next t) : t.Legal :=
  h.submitWord ((submitWord_of_decodeWord (decodeWord_encode i) s).trans ht)

/-- Settles O35: the walk has fewer slots before it than IN has bits, and each of its steps keeps `State.WalkOf`. -/
theorem decodeCompletesWithinItsBound : Obligations.DecodeCompletesWithinItsBound := by
  intro s h hb ht hle hge hcount
  have hexec := decodeAcceptedStartsTheWalk s hb ht hle hge hcount
  have hlegal := h.exec hexec
  obtain ⟨n, hn, hidle, hres⟩ := hlegal.runBlock_decode_ends (fun u hu hseq hP => hP.decodeStep hu hseq) rfl
    (P := s.WalkOf) (Q := s.WalkResult) ⟨rfl, fun _ _ => rfl⟩
  exact ⟨_, n, hexec, hn.trans (hlegal.slotsLeft_lt rfl), (State.busy_eq_false_iff _).mpr hidle, hres.done, hres.err,
    hres.outCount, hres.outLen_le, hres.outLen_eq, hres.written⟩

end Sys2Proof.Machine
end

section
/-! SUPPORT. The round trip (41_decode.md R157): the bits of a block as the walk meets them, the codes as it follows
them, and the bytes as it emits them. -/

namespace Sys2Proof.Machine

/-- The codes of a byte string depend on CHILD and ROOT alone. -/
theorem State.Encodes.congr {s : State} {c : Byte} {x : List Byte} {bits : List Bool} (h : s.Encodes c x bits)
    (t : State) (hchild : t.child = s.child) (hroot : t.root = s.root) : t.Encodes c x bits := by
  induction x generalizing c bits with
  | nil => exact h
  | cons b rest ih =>
    obtain ⟨code, tail, rfl, hinternal, hpath, hrest⟩ := h
    have hr : t.rootOf c = s.rootOf c := by rw [State.rootOf, State.rootOf, hroot]
    exact ⟨code, tail, rfl, hr ▸ hinternal, by rw [hr, hchild]; exact hpath, ih hrest⟩

/-- A path from an internal node has a first bit. -/
theorem CodePath.exists_cons {pairs : List (Node × Node)} {n : Node} {code : List Bool} {b : Byte}
    (h : CodePath pairs n code b) (hn : 256 ≤ n.toNat) : ∃ bit rest, code = bit :: rest :=
  List.exists_cons_of_ne_nil fun hnil => absurd (hnil ▸ h).lt_of_nil (Nat.not_lt.mpr hn)

/-! The bits of the block -/

/-- The block in IN holds `bits`, packed least significant bit first, and ends below IN_SIZE; no byte of it is raced. -/
structure State.HoldsBits (s : State) (bits : List Bool) : Prop where
  raced : s.raced = []
  some : bits ≠ []
  length : s.inLenL.toNat = 4 + (bits.length + 7) / 8
  room : s.inLenL.toNat < s.params.inSize
  packed : ∀ k (h : k < bits.length), (s.readByte (inAddr (4 + k / 8))).getLsbD (k % 8) = bits[k]

/-- The walk is before bit `j` of the block: its byte is in hand, or the next one to fetch. -/
structure State.BeforeBit (s : State) (j : Nat) : Prop where
  slot : s.dp.slot.toNat = j % 8
  off : s.dp.off.toNat = 4 + (j + 7) / 8
  byte : j % 8 ≠ 0 → s.dp.byte = s.readByte (inAddr (4 + j / 8))

/-- The walk is at bit `j` of the block: the byte of the bit has been fetched, past the block a draw. -/
structure State.AtBit (s : State) (j : Nat) : Prop where
  slot : s.dp.slot.toNat = j % 8
  off : s.dp.off.toNat = 5 + j / 8
  byte : 4 + j / 8 < s.inLenL.toNat → s.dp.byte = s.readByte (inAddr (4 + j / 8))

section
variable {s : State} {x rest : List Byte} {bits code : List Bool} {j : Nat} {b : Byte}

/-- Up to the end of the bits the buffer holds one more byte, the slack fetch of 41_decode.md R145 included. -/
theorem State.BeforeBit.off_lt (h : s.BeforeBit j) (hbits : s.HoldsBits bits) (hj : j ≤ bits.length) :
    s.dp.off.toNat < s.params.inSize := by
  have hlength := hbits.length
  have hroom := hbits.room
  have hoff := h.off
  omega

/-- The byte of bit `j` is loaded. -/
theorem State.BeforeBit.loadByte (h : s.BeforeBit j) (hlegal : s.Legal) (hbits : s.HoldsBits bits)
    (hj : j ≤ bits.length) : s.loadByte.AtBit j := by
  have hslot := h.slot
  have hoff := h.off
  by_cases h0 : s.dp.slot = 0
  · have hj0 : j % 8 = 0 := hslot.symm.trans (congrArg BitVec.toNat h0)
    have hcur : s.dp.off.toNat = 4 + j / 8 := by omega
    have hnext := hlegal.off_succ (h.off_lt hbits hj)
    rw [State.loadByte_of_slot_zero h0]
    refine ⟨hslot, show (s.dp.off + 1).toNat = 5 + j / 8 by omega, fun hin => ?_⟩
    show s.fetch s.dp.off.toNat = s.readByte (inAddr (4 + j / 8))
    rw [hcur]
    exact State.fetch_of_block hin (hbits.raced ▸ List.not_mem_nil)
  · have hj0 : j % 8 ≠ 0 := fun hz => h0 (BitVec.eq_of_toNat_eq (hslot.trans hz))
    rw [State.loadByte_of_slot_ne_zero h0]
    exact ⟨hslot, by omega, fun _ => h.byte hj0⟩

/-- The bit a slot uses is the block's bit `j`. -/
theorem State.AtBit.slotBit_eq (h : s.AtBit j) (hbits : s.HoldsBits bits) (hj : j < bits.length) :
    slotBit s.dp.byte s.dp.slot = bits[j] := by
  have hlength := hbits.length
  rw [slotBit, h.slot, h.byte (by omega), hbits.packed j hj]

/-- After the slot of bit `j` the walk is before the next bit. -/
theorem State.AtBit.bitStep (h : s.AtBit j) (hbits : s.HoldsBits bits) (hj : j < bits.length) :
    s.bitStep.BeforeBit (j + 1) := by
  have hslot := h.slot
  have hoff := h.off
  have hlength := hbits.length
  refine ⟨?_, show s.dp.off.toNat = 4 + (j + 1 + 7) / 8 by omega, fun hmid => ?_⟩
  · exact (slot_succ_toNat _).trans (by omega)
  · rw [show (j + 1) / 8 = j / 8 by omega]
    exact h.byte (by omega)

/-! The emission of a leaf and the block -/

/-- The bytes of IN lie below those of OUT. -/
theorem inAddr_ne_outAddr {o e : Nat} (h : o < 1048576) : inAddr o ≠ outAddr e := by
  simp only [inAddr, outAddr, Config.inBase, Config.outBase]
  omega

/-- An emission changes no byte of IN. -/
theorem State.MidPass.readByte_emitLeaf_in (h : s.MidPass) {o : Nat} (ho : o < s.params.inSize) :
    s.emitLeaf.readByte (inAddr o) = s.readByte (inAddr o) := by
  obtain ⟨_, hin, _⟩ := Params.bounds_of_wellFormed h.sound.params
  exact s.readByte_emitLeaf_ne (inAddr_ne_outAddr (ho.trans_le hin))

theorem State.HoldsBits.emitLeaf (h : s.HoldsBits bits) (hm : s.MidPass) : s.emitLeaf.switchContext.HoldsBits bits := by
  have hlength := h.length
  have hroom := h.room
  refine ⟨h.raced, h.some, hlength, hroom, fun k hk => ?_⟩
  exact (congrArg (·.getLsbD (k % 8)) (hm.readByte_emitLeaf_in (by omega))).trans (h.packed k hk)

theorem State.AtBit.emitLeaf (h : s.AtBit j) (hm : s.MidPass) (hbits : s.HoldsBits bits) :
    s.emitLeaf.switchContext.AtBit j :=
  ⟨h.slot, h.off, fun hin => (h.byte hin).trans (hm.readByte_emitLeaf_in (lt_trans hin hbits.room)).symm⟩

/-! The codes and the bytes -/

/-- The walk over `x`, packed as `bits`, has used `j` of the bits: `code` leads on from its node to the byte `b`, the rest
of `x` is encoded after it, and the bytes before `b` are in OUT. -/
structure State.Decoding (s : State) (x : List Byte) (bits : List Bool) (j : Nat) (code : List Bool) (b : Byte)
    (rest : List Byte) : Prop where
  used : j ≤ bits.length
  stream : ∃ tail, bits.drop j = code ++ tail ∧ s.Encodes b rest tail
  path : CodePath s.child[s.dp.ctx.toNat] s.dp.node code b
  owed : s.dp.rem.toNat = rest.length + 1
  left : x.drop s.dp.e.toNat = b :: rest
  written : ∀ k (h : k < x.length), k < s.dp.e.toNat → s.readByte (outAddr k) = x[k]

/-- A code's first bit is the next bit of the block. -/
theorem State.Decoding.next_bit {bit : Bool} (h : s.Decoding x bits j (bit :: code) b rest) :
    ∃ hj : j < bits.length, bits[j] = bit := by
  obtain ⟨tail, hdrop, _⟩ := h.stream
  have hj : j < bits.length := by
    by_contra hge
    rw [List.drop_eq_nil_of_le (Nat.not_lt.mp hge)] at hdrop
    cases hdrop
  rw [List.drop_eq_getElem_cons hj] at hdrop
  exact ⟨hj, (List.cons.inj hdrop).1⟩

/-- The bit step follows a code. -/
theorem State.Decoding.bitStep {bit : Bool} (h : s.Decoding x bits j (bit :: code) b rest)
    (hbit : slotBit s.dp.byte s.dp.slot = bit) : s.bitStep.Decoding x bits (j + 1) code b rest := by
  obtain ⟨hj, _⟩ := h.next_bit
  obtain ⟨tail, hdrop, hrest⟩ := h.stream
  obtain ⟨hn, p, hp, hpath⟩ := codePath_cons_iff.mp h.path
  refine ⟨hj, ⟨tail, ?_, hrest.congr s.bitStep rfl rfl⟩, ?_, h.owed, h.left, h.written⟩
  · rw [List.drop_eq_getElem_cons hj] at hdrop
    exact (List.cons.inj hdrop).2
  · rw [← hbit, ← State.childOf_of_built hn hp] at hpath
    exact hpath

/-- An empty code has reached the leaf of its byte. -/
theorem State.Decoding.leaf_eq (h : s.Decoding x bits j [] b rest) : s.dp.node.setWidth 8 = b := by
  rw [codePath_nil_iff.mp h.path, setWidth_setWidth_leaf]

/-- The emission of the leaf puts its byte after those already in OUT. -/
theorem State.Decoding.written_emitLeaf (h : s.Decoding x bits j [] b rest) (hraced : s.raced = [])
    {k : Nat} (hk : k < x.length) (hle : k ≤ s.dp.e.toNat) : s.emitLeaf.readByte (outAddr k) = x[k] := by
  rcases hle.eq_or_lt with rfl | hlt
  · have hbyte : s.leafByte = b := (State.leafByte_of_not_raced (hraced ▸ List.not_mem_nil)).trans h.leaf_eq
    have hleft := h.left
    rw [List.drop_eq_getElem_cons hk] at hleft
    rw [State.readByte_emitLeaf_self, hbyte, (List.cons.inj hleft).1]
  · rw [s.readByte_emitLeaf_ne (by simp only [outAddr]; omega)]
    exact h.written k hk hlt

/-- At the leaf of a byte that is not the last, the walk goes on at the root of its context with the code of the next
byte (41_decode.md R147). -/
theorem State.Decoding.switchContext {b' : Byte} (h : s.Decoding x bits j [] b (b' :: rest)) (hm : s.MidPass)
    (hraced : s.raced = []) :
    256 ≤ (s.rootOf b).toNat ∧ ∃ bit code, s.emitLeaf.switchContext.Decoding x bits j (bit :: code) b' rest := by
  obtain ⟨_, he, hr⟩ := hm.emit_counts
  obtain ⟨tail, hdrop, code, tail', rfl, hroot, hpath, hrest⟩ := h.stream
  obtain ⟨bit, code, rfl⟩ := hpath.exists_cons hroot
  have howed := h.owed
  refine ⟨hroot, bit, code, h.used, ⟨tail', hdrop, hrest.congr s.emitLeaf.switchContext rfl rfl⟩, ?_, ?_, ?_,
    fun k hk hlt => ?_⟩
  · rw [← h.leaf_eq] at hpath
    exact hpath
  · show (s.dp.rem - 1).toNat = rest.length + 1
    rw [List.length_cons] at howed
    omega
  · show x.drop (s.dp.e + 1).toNat = b' :: rest
    rw [he, ← List.drop_drop, h.left, List.drop_one, List.tail_cons]
  · have hle : k < (s.dp.e + 1).toNat := hlt
    exact h.written_emitLeaf hraced hk (by omega)

/-! The steps of the round trip -/

/-- The walk over `x` and `bits` goes on, before some bit of the block. -/
structure State.RoundTrip (x : List Byte) (bits : List Bool) (s : State) : Prop where
  block : s.HoldsBits bits
  place : ∃ j code b rest, s.BeforeBit j ∧ s.Decoding x bits j code b rest

/-- The walk over `x` and `bits` has succeeded. -/
structure State.RoundTripResult (x : List Byte) (bits : List Bool) (s : State) : Prop where
  done : s.done = true
  err : s.err = .none
  overread : s.overread = false
  underread : s.underread = false
  outLen : s.outLen.toNat = x.length
  written : ∀ k (h : k < x.length), s.readByte (outAddr k) = x[k]
  consumed : s.consumed.toNat =
    4 + (bits.length + 7) / 8 + (if bits.length ≠ 0 ∧ bits.length % 8 = 0 then 1 else 0)

/-- The slot of a code's bit. -/
theorem State.Decoding.roundTrip_bitStep {bit : Bool} (h : s.Decoding x bits j (bit :: code) b rest)
    (hbits : s.HoldsBits bits) (hat : s.AtBit j) : s.bitStep.RoundTrip x bits := by
  obtain ⟨hj, rfl⟩ := h.next_bit
  exact ⟨{ hbits with }, j + 1, code, b, rest, hat.bitStep hbits hj, h.bitStep (hat.slotBit_eq hbits hj)⟩

/-- The slot after the last bit: the last byte is emitted and the command completes. -/
theorem State.Decoding.roundTrip_finish (h : s.Decoding x bits j [] b []) (hm : s.MidPass) (hbits : s.HoldsBits bits)
    (hat : s.AtBit j) : s.emitLeaf.walkFinish.RoundTripResult x bits := by
  obtain ⟨_, he, _⟩ := hm.emit_counts
  obtain ⟨tail, hdrop, rfl⟩ := h.stream
  have hj : j = bits.length := le_antisymm h.used (List.drop_eq_nil_iff.mp hdrop)
  have hlen : x.length = s.dp.e.toNat + 1 := by
    have := congrArg List.length h.left
    rw [List.length_drop, List.length_singleton] at this
    omega
  have hpos := List.length_pos_iff.mpr hbits.some
  have hlength := hbits.length
  have hoff : s.dp.off.toNat = 5 + bits.length / 8 := hj ▸ hat.off
  refine ⟨rfl, rfl, decide_eq_false (show ¬ s.dp.off.toNat > s.inLenL.toNat + 1 by omega),
    decide_eq_false (show ¬ s.dp.off.toNat < s.inLenL.toNat by omega), he.trans hlen.symm, fun k hk => ?_,
    hoff.trans ?_⟩
  · exact h.written_emitLeaf hbits.raced hk (by omega)
  · split <;> omega

/-- One bit slot of the round trip. -/
theorem State.Decoding.slotStep (h : s.Decoding x bits j code b rest) (hm : s.MidPass) (hbits : s.HoldsBits bits)
    (hat : s.AtBit j) : s.slotStep.GoesOnOrEnds (State.RoundTrip x bits) (State.RoundTripResult x bits) := by
  cases code with
  | cons bit code =>
    rw [State.slotStep_of_internal (codePath_cons_iff.mp h.path).1]
    exact .inl ⟨hm.seq, h.roundTrip_bitStep hbits hat⟩
  | nil =>
    have hleaf := h.path.lt_of_nil
    have howed := h.owed
    cases rest with
    | nil =>
      rw [State.slotStep_of_last_leaf hleaf (BitVec.eq_of_toNat_eq howed)]
      exact .inr ⟨rfl, h.roundTrip_finish hm hbits hat⟩
    | cons b' rest =>
      obtain ⟨hroot, bit, code, hnext⟩ := h.switchContext hm hbits.raced
      have hrem : s.dp.rem ≠ 1 := fun h1 => by simp [h1] at howed
      rw [State.slotStep_of_leaf hleaf hrem (h.leaf_eq.symm ▸ hroot)]
      exact .inl ⟨hm.seq, hnext.roundTrip_bitStep (hbits.emitLeaf hm) (hat.emitLeaf hm hbits)⟩

/-- A fetch changes the byte in hand and OFF alone. -/
theorem State.Decoding.loadByte (h : s.Decoding x bits j code b rest) : s.loadByte.Decoding x bits j code b rest := by
  unfold State.loadByte
  split
  · obtain ⟨tail, hdrop, hrest⟩ := h.stream
    exact { h with stream := ⟨tail, hdrop, hrest.congr s.fetchByte rfl rfl⟩ }
  · exact h

theorem State.HoldsBits.loadByte (h : s.HoldsBits bits) : s.loadByte.HoldsBits bits := by
  unfold State.loadByte
  split
  · exact { h with }
  · exact h

/-- One block step of the round trip: a byte is owed and the buffer does not end, so it is a bit slot. -/
theorem State.RoundTrip.decodeStep (h : s.RoundTrip x bits) (hlegal : s.Legal) (hseq : s.seq = .decode) :
    s.decodeStep.GoesOnOrEnds (State.RoundTrip x bits) (State.RoundTripResult x bits) := by
  obtain ⟨hbits, j, code, b, rest, hbefore, hdec⟩ := h
  have howed := hdec.owed
  have hoff := hbefore.off_lt hbits hdec.used
  rcases hlegal.decodeStep_cases hseq with ⟨hrem, _⟩ | ⟨_, hend, _⟩ | ⟨hm, hd⟩
  · simp [hrem] at howed
  · omega
  · rw [hd]
    exact hdec.loadByte.slotStep hm hbits.loadByte (hbefore.loadByte hlegal hbits hdec.used)

end

/-- Settles O36: the round trip of a block with bytes keeps `State.RoundTrip`; the empty one is O33. -/
theorem roundTripOfEncodedBlock : Obligations.RoundTripOfEncodedBlock := by
  intro s x bits hlegal hb ht henc hlen hroom hx hcount hpacked
  cases x with
  | nil =>
    obtain rfl : bits = [] := henc
    obtain ⟨t, hexec, hbusy, hdone, herr, hout, _, hcons, hover, hunder, _⟩ :=
      emptyBlockCompletesWithoutAFetch s hb ht hroom.le (by omega) (BitVec.eq_of_toNat_eq hcount)
    simp only [List.length_nil] at hlen
    refine ⟨t, 1, hexec, ?_⟩
    rw [runBlock_succ, runBlock_zero]
    refine ⟨hbusy, hdone, herr, hover, ?_, by rw [hout]; rfl, fun k hk => absurd hk (Nat.not_lt_zero k), ?_⟩
    · simp [hunder, hlen]
    · simp [hcons, hlen]
  | cons b rest =>
    have hexec := decodeAcceptedStartsTheWalk s hb ht hroom.le (by omega) (hcount ▸ hx)
    obtain ⟨code, tail, rfl, hroot, hpath, hrest⟩ := henc
    obtain ⟨bit, code, rfl⟩ := hpath.exists_cons hroot
    obtain ⟨n, _, hidle, hres⟩ := (hlegal.exec hexec).runBlock_decode_ends
      (fun u hu hseq hP => hP.decodeStep hu hseq) rfl
      (P := State.RoundTrip (b :: rest) (bit :: code ++ tail))
      (Q := State.RoundTripResult (b :: rest) (bit :: code ++ tail))
      { block := ⟨rfl, List.cons_ne_nil _ _, hlen, hroom, hpacked⟩
        place := ⟨0, bit :: code, b, rest, ⟨rfl, rfl, fun h => absurd rfl h⟩, {
          used := Nat.zero_le _
          stream := ⟨tail, rfl, hrest.congr _ rfl rfl⟩
          path := hpath
          owed := hcount
          left := rfl
          written := fun _ _ h => absurd h (Nat.not_lt_zero _) }⟩ }
    exact ⟨_, n, hexec, (State.busy_eq_false_iff _).mpr hidle, hres.done, hres.err, hres.overread, hres.underread,
      hres.outLen, hres.written, hlen ▸ hres.consumed⟩

end Sys2Proof.Machine
end

section
/-! SUPPORT. The control of commands (42_control.md R170 to R173): a CMD write while BUSY = 1 is dropped, and one
accepted while BUSY = 0 either completes at once or starts the command; and what a register write stores (R174). -/

namespace Sys2Proof.Machine

/-! A CMD write while BUSY = 1 -/

theorem exec_of_busy {s : State} (h : s.busy = true) (i : Instr) : exec i s = .next s.drop := by
  cases i with
  | build => exact congrArg Host.Outcome.next (State.submit_of_busy h _)
  | decode => exact congrArg Host.Outcome.next (State.submit_of_busy h _)
  | release => exact congrArg Host.Outcome.next (State.submit_of_busy h _)

theorem submitWord_of_error {w : Word} {e : DecodeError} (h : decodeWord w = .error e) (s : State) :
    submitWord w s = execIllegal s := by
  rw [submitWord, h]

theorem submitWord_of_busy {s : State} (h : s.busy = true) (w : Word) : submitWord w s = .next s.drop := by
  cases hw : decodeWord w with
  | ok i => rw [submitWord_of_decodeWord hw, exec_of_busy h]
  | error e => rw [submitWord_of_error hw, execIllegal, State.submit_of_busy h]

/-- Settles O5. -/
theorem busyCommandWriteIsDropped : Obligations.BusyCommandWriteIsDropped := by
  refine ⟨fun s w rest hagenda hb => ?_, fun s i hb => exec_of_busy hb i⟩
  rw [step_cons hagenda, runEvent_submitEvent]
  exact submitWord_of_busy (s := { s with agenda := rest }) hb w

/-! Completion in the accepting transaction -/

/-- A completion from IDLE, which is one in the accepting transaction, leaves the sequencer where it was. -/
theorem State.complete_of_idle {s : State} (h : s.busy = false) (e : ErrCode) :
    s.complete e =
      { s with done := true, err := e, raced := [], dp := Datapath.free s.draws, draws := s.draws + 7 } := by
  rw [State.complete, State.freeDatapath, ← s.busy_eq_false_iff.mp h]

/-- An error raised from IDLE, likewise. -/
theorem State.raise_of_idle {s : State} (h : s.busy = false) (e : ErrCode) :
    s.raise e = { s with done := true, err := e, overread := false, underread := false, raced := [],
                         dp := Datapath.free s.draws, draws := s.draws + 7 } :=
  State.complete_of_idle (s := { s with overread := false, underread := false }) h e

/-- Settles O4: an illegal word's acceptance part raises BAD_CMD. -/
theorem illegalCommandWordIsBadCmd : Obligations.IllegalCommandWordIsBadCmd := by
  intro s w rest e hagenda hb hw
  refine ⟨Datapath.free s.draws, s.draws + 7, ?_⟩
  rw [step_cons hagenda, runEvent_submitEvent, submitWord_of_error hw, execIllegal,
    State.submit_of_idle (s := { s with agenda := rest }) hb]
  exact congrArg Host.Outcome.next (State.raise_of_idle (s := State.accept { s with agenda := rest }) hb .badCmd)

/-- Settles O37: RELEASE's acceptance part is a completion with TABLE_VALID cleared. -/
theorem releaseCompletesAtOnce : Obligations.ReleaseCompletesAtOnce := by
  intro s hb
  refine ⟨Datapath.free s.draws, s.draws + 7, ?_⟩
  rw [exec, execRelease, State.submit_of_idle hb]
  exact congrArg Host.Outcome.next (State.complete_of_idle (s := { s.accept with tableValid := false }) hb .none)

/-! What an accepted command leaves -/

/-- How the accepting transaction ends (42_control.md R172): the diagnostics are 0, and the command has completed or is
running with DONE and ERR at 0. -/
structure State.Accepted (s : State) : Prop where
  overread : s.overread = false
  underread : s.underread = false
  dropped : s.dropped = false
  outcome : (s.busy = false ∧ s.done = true) ∨ (s.busy = true ∧ s.done = false ∧ s.err = .none)

theorem State.FlagsClear.accepted_complete {s : State} (hf : s.FlagsClear) (hd : s.dropped = false) (e : ErrCode) :
    (s.complete e).Accepted := ⟨hf.overread, hf.underread, hd, .inl ⟨rfl, rfl⟩⟩

theorem State.accepted_raise {s : State} (hd : s.dropped = false) (e : ErrCode) : (s.raise e).Accepted :=
  ⟨rfl, rfl, hd, .inl ⟨rfl, rfl⟩⟩

theorem State.FlagsClear.accepted_of_busy {s : State} (hf : s.FlagsClear) (hd : s.dropped = false)
    (hseq : s.seq ≠ .idle) : s.Accepted :=
  ⟨hf.overread, hf.underread, hd, .inr ⟨s.busy_eq_true_iff.mpr hseq, hf.done, hf.err⟩⟩

theorem State.FlagsClear.accepted_buildAccept {s : State} (hf : s.FlagsClear) (hd : s.dropped = false) :
    s.buildAccept.Accepted := by
  unfold State.buildAccept
  split
  · exact State.accepted_raise hd _
  · exact State.FlagsClear.accepted_of_busy (s := { s with seq := .build 0 }) { hf with } hd nofun

theorem State.FlagsClear.accepted_releaseAccept {s : State} (hf : s.FlagsClear) (hd : s.dropped = false) :
    s.releaseAccept.Accepted :=
  State.FlagsClear.accepted_complete (s := { s with tableValid := false }) { hf with } hd .none

theorem State.FlagsClear.accepted_decodeChecks {s : State} (hf : s.FlagsClear) (hd : s.dropped = false) :
    s.decodeChecks.Accepted := by
  rcases s.decodeChecks_cases with
    ⟨_, h⟩ | ⟨_, _, h⟩ | ⟨_, _, _, h⟩ | ⟨_, _, _, _, h⟩ | ⟨_, _, _, _, h⟩ <;> rw [h]
  iterate 3 exact State.accepted_raise hd _
  · exact State.accepted_raise (s := { s with outCount := s.headerCount, consumed := 4 }) hd _
  · exact State.FlagsClear.accepted_of_busy { hf with } hd nofun

theorem State.FlagsClear.accepted_decodeAccept {s : State} (hf : s.FlagsClear) (hd : s.dropped = false) :
    s.decodeAccept.Accepted :=
  State.FlagsClear.accepted_decodeChecks { hf with } hd

/-- A command written to CMD while BUSY = 0 is accepted (42_control.md R172). -/
theorem exists_exec_accepted {s : State} (hb : s.busy = false) (i : Instr) :
    ∃ t, exec i s = .next t ∧ t.Accepted := by
  have hf := s.accept_flagsClear
  cases i with
  | build => exact ⟨_, congrArg Host.Outcome.next (State.submit_of_idle hb _), hf.accepted_buildAccept rfl⟩
  | decode => exact ⟨_, congrArg Host.Outcome.next (State.submit_of_idle hb _), hf.accepted_decodeAccept rfl⟩
  | release => exact ⟨_, congrArg Host.Outcome.next (State.submit_of_idle hb _), hf.accepted_releaseAccept rfl⟩

/-- Settles O6. -/
theorem acceptedCommandClearsFlags : Obligations.AcceptedCommandClearsFlags := by
  intro s i hb
  obtain ⟨t, ht, hover, hunder, hdrop, hout⟩ := exists_exec_accepted hb i
  exact ⟨t, ht, hover, hunder, hdrop, hout⟩

/-! Register writes -/

/-- A 32-bit write to a word of the register region is the write of that register. -/
theorem step_wr32_register {s : State} {a : Offset} {v : Word} {rest : List Event}
    (h : s.agenda = .host (.wr32 a v) :: rest) (h0 : a.toNat % 4 = 0) (h1 : a.toNat + 4 ≤ 0x100) :
    step s = writeRegister a.toNat v { s with agenda := rest } := by
  rw [step_host h, hostTxn, hostWrite, regionOf_registers _ h0 h1]

theorem writeRegister_ignored {a : Offset} (h0 : a ≠ 0x000) (h1 : a ≠ 0x008) (h2 : a ≠ 0x018) (v : Word)
    (s : State) : writeRegister a.toNat v s = .next s := by
  rw [writeRegister, if_neg (by bv_omega), if_neg (by bv_omega), if_neg (by bv_omega)]

/-- TADDR's bits are 7:0 and 24:16 (10_state.md R42). -/
theorem taddrMask_getLsbD {i : Nat} (h : i < 32) :
    (0x01FF00FF#32).getLsbD i = (decide (i < 8) || decide (16 ≤ i ∧ i < 25)) := by
  revert i
  decide

/-- TADDR reads back what was stored, with its reserved bits 0 (10_state.md R42). -/
theorem State.taddrWord_setTaddr (s : State) (v : Word) : (s.setTaddr v).taddrWord = v &&& 0x01FF00FF#32 := by
  apply BitVec.eq_of_getLsbD_eq
  intro i hi
  rw [BitVec.getLsbD_and, taddrMask_getLsbD hi]
  simp only [State.taddrWord, State.setTaddr_taddrCtx, State.setTaddr_taddrNode, BitVec.getLsbD_or,
    BitVec.getLsbD_shiftLeft, BitVec.getLsbD_setWidth, BitVec.getLsbD_extractLsb', hi]
  by_cases h8 : i < 8
  · simp [h8, show i < 16 by omega]
  · by_cases h16 : i < 16
    · simp [h8, h16]
    · have hback : 16 + (i - 16) = i := by omega
      have hnode : i - 16 < 9 ↔ i < 25 := by omega
      simp [h8, h16, Nat.le_of_not_lt h16, show i - 16 < 32 by omega, hback, hnode, Bool.and_comm]

/-- Settles O45. -/
theorem registerWrites : Obligations.RegisterWrites := by
  intro s a v rest h
  refine ⟨?_, ?_, fun h0 h1 h2 hlt h4 => ?_⟩
  · rintro rfl
    exact step_wr32_register h (by decide) (by decide)
  · rintro rfl
    exact ⟨_, step_wr32_register h (by decide) (by decide), rfl, State.taddrWord_setTaddr _ v⟩
  · rw [step_wr32_register h h4 (by omega)]
    exact writeRegister_ignored h0 h1 h2 v _

end Sys2Proof.Machine
end

section
/-! SUPPORT. The error returns of the commands: what each refusal of BUILD and DECODE records (60_exceptions.md R203 to
R207) and the end of a walk at a leaf root (R208); the fault set, which no step clears, and that the machine goes on
(R200, R214). -/

namespace Sys2Proof.Machine

/-! The refusals of BUILD and DECODE -/

/-- Settles O8: BUILD's acceptance part raises TABLE_PRESENT. -/
theorem buildRefusedWhileTableValid : Obligations.BuildRefusedWhileTableValid := by
  intro s hb ht
  have hrefused : s.accept.buildAccept = s.accept.raise .tablePresent := if_pos ht
  refine ⟨Datapath.free s.draws, s.draws + 7, ?_⟩
  rw [exec, execBuild, State.submit_of_idle hb, hrefused]
  exact congrArg Host.Outcome.next (State.raise_of_idle (s := s.accept) hb .tablePresent)

theorem State.decodeChecks_of_no_table {s : State} (ht : s.tableValid = false) : s.decodeChecks = s.raise .noTable :=
  if_pos ht

theorem State.decodeChecks_of_long_block {s : State} (ht : s.tableValid = true)
    (hlen : s.params.inSize < s.inLenL.toNat) : s.decodeChecks = s.raise .inLenRange :=
  (if_neg (by simp [ht])).trans (if_pos hlen)

theorem State.decodeChecks_of_short_block {s : State} (ht : s.tableValid = true)
    (hle : s.inLenL.toNat ≤ s.params.inSize) (hlen : s.inLenL.toNat < 4) : s.decodeChecks = s.raise .shortBlock :=
  (if_neg (by simp [ht])).trans <| (if_neg (Nat.not_lt.mpr hle)).trans (if_pos hlen)

theorem State.decodeChecks_of_large_count {s : State} (ht : s.tableValid = true)
    (hle : s.inLenL.toNat ≤ s.params.inSize) (hge : 4 ≤ s.inLenL.toNat)
    (hcount : s.params.outSize < s.headerCount.toNat) :
    s.decodeChecks = State.raise { s with outCount := s.headerCount, consumed := 4 } .outRange :=
  (if_neg (by simp [ht])).trans <| (if_neg (Nat.not_lt.mpr hle)).trans <|
    (if_neg (Nat.not_lt.mpr hge)).trans (if_pos hcount)

/-- The state in which DECODE's acceptance makes its checks: IN_LEN latched, the result registers 0 (41_decode.md
R141). -/
def State.latched (s : State) : State := { s.accept with inLenL := s.inLen, outCount := 0, outLen := 0, consumed := 0 }

/-- DECODE accepted, when its checks raise an error in the state `t`. -/
theorem exec_decode_of_raise {s t : State} {e : ErrCode} (hb : s.busy = false)
    (h : s.latched.decodeChecks = t.raise e) (ht : t.busy = false) :
    exec .decode s = .next { t with done := true, err := e, overread := false, underread := false, raced := [],
                                    dp := Datapath.free t.draws, draws := t.draws + 7 } := by
  have hact : s.accept.decodeAccept = t.raise e := h
  rw [exec, execDecode, State.submit_of_idle hb, hact, State.raise_of_idle ht]

/-- Settles O21. -/
theorem decodeWithoutTableIsRefused : Obligations.DecodeWithoutTableIsRefused := by
  intro s hb ht
  have hchecks := State.decodeChecks_of_no_table (s := s.latched) ht
  exact ⟨_, _, exec_decode_of_raise hb hchecks hb⟩

/-- Settles O22. -/
theorem decodeLengthBeyondBufferIsRefused : Obligations.DecodeLengthBeyondBufferIsRefused := by
  intro s hb ht hlen
  have hchecks := State.decodeChecks_of_long_block (s := s.latched) ht hlen
  exact ⟨_, _, exec_decode_of_raise hb hchecks hb⟩

/-- Settles O23. -/
theorem decodeShortBlockIsRefused : Obligations.DecodeShortBlockIsRefused := by
  intro s hb ht hle hlen
  have hchecks := State.decodeChecks_of_short_block (s := s.latched) ht hle hlen
  exact ⟨_, _, exec_decode_of_raise hb hchecks hb⟩

/-- Settles O24: the header that the checks read is the one that stood before the acceptance. -/
theorem decodeCountBeyondOutputIsRefused : Obligations.DecodeCountBeyondOutputIsRefused := by
  intro s hb ht hle hge hcount
  have hchecks := State.decodeChecks_of_large_count (s := s.latched) ht hle hge hcount
  exact ⟨_, _, exec_decode_of_raise hb hchecks hb⟩

/-! The leaf root -/

/-- A context switch leaves nothing behind in a walk that ends with an error: CTX and NODE are free then (10_state.md
R26). -/
theorem State.switchContext_walkError (s : State) (e : ErrCode) : s.switchContext.walkError e = s.walkError e := rfl

/-- At a leaf with more bytes owed, whose context has a leaf for its root, the walk ends after the emission. -/
theorem State.slotStep_of_leaf_root {s : State} (h : s.dp.node.toNat < 256) (hrem : s.dp.rem ≠ 1)
    (hroot : (s.rootOf (s.dp.node.setWidth 8)).toNat < 256) :
    s.slotStep = s.emitLeaf.walkError .degenerateRoot :=
  (if_pos h).trans <| (if_neg fun h0 => hrem (sub_eq_zero.mp h0)).trans <|
    (if_pos hroot).trans (s.emitLeaf.switchContext_walkError .degenerateRoot)

/-- Settles O31: the error is raised after the emission, and leaves memory as it is. -/
theorem switchToALeafRootIsDegenerate : Obligations.SwitchToALeafRootIsDegenerate := by
  intro s c hnode hrem hroot
  have hleaf : s.dp.node.toNat < 256 := hnode ▸ toNat_leaf_lt c
  obtain rfl : s.dp.node.setWidth 8 = c := by rw [hnode, setWidth_setWidth_leaf]
  rw [State.slotStep_of_leaf_root hleaf hrem hroot]
  exact ⟨s.leafByte, _, _, rfl, s.readByte_emitLeaf_self, State.leafByte_of_not_raced,
    fun _ ha => s.readByte_emitLeaf_ne ha⟩

/-! The fault set -/

/-- A buffer write clears no recorded fault, and while BUSY = 1 it adds HostRace (70_reset_and_hazards.md R236). -/
theorem State.mem_faults_writeBuffer {s : State} {f : Fault} (h : f ∈ s.faults) (a : Offset) (bs : List Byte) :
    f ∈ (s.writeBuffer a bs).faults := by
  have hbytes : f ∈ (s.writeBytes a.toNat bs).faults := by rwa [State.writeBytes_eq]
  unfold State.writeBuffer
  split
  · exact State.mem_recordFault_of_mem hbytes
  · exact hbytes

/-- No command's CMD write, nor an illegal word's, touches the fault set. -/
theorem submitWord_faults {w : Word} {s t : State} (h : submitWord w s = .next t) : t.faults = s.faults := by
  cases hw : decodeWord w with
  | error e =>
    rw [submitWord_of_error hw] at h
    cases h
    unfold State.submit
    split <;> rfl
  | ok i =>
    rw [submitWord_of_decodeWord hw] at h
    cases i with
    | build => rw [exec_build_frame h]
    | decode => rw [exec_decode_frame h]
    | release => rw [exec_release_frame h]

theorem mem_faults_hostTxn {x : HostTxn} {s t : State} (h : hostTxn x s = .next t) {f : Fault} (hf : f ∈ s.faults) :
    f ∈ t.faults := by
  rcases hostTxn_cases h with ⟨a, n, rfl⟩ | ⟨w, _, hw⟩ | ⟨v, rfl⟩ | ⟨v, rfl⟩ | rfl | ⟨a, n, v, _, rfl⟩ | ⟨g, rfl⟩
  · exact State.mem_faults_hostRead a n hf
  · rwa [submitWord_faults hw]
  · exact hf
  · exact hf
  · exact hf
  · exact State.mem_faults_writeBuffer hf a _
  · exact State.mem_recordFault_of_mem hf

/-- The block itself records no fault and clears none. -/
@[simp] theorem State.blockStep_faults (s : State) : s.blockStep.faults = s.faults := by
  rcases s.blockStep_cases with ⟨_, h⟩ | ⟨c, _, _, h⟩ | ⟨_, h⟩ | ⟨_, h⟩ <;> rw [h]
  · rfl
  · rfl
  · rw [s.decodeStep_frame]

@[simp] theorem State.poll_faults (s : State) : s.poll.faults = s.faults := by
  rw [State.poll_eq]
  split <;> rfl

/-- Settles O54: only a host transaction changes the fault set, and it only adds to it. -/
theorem faultsAreNeverCleared : Obligations.FaultsAreNeverCleared := by
  intro s t h f hf
  rcases step_cases h with ⟨_, rfl⟩ | ⟨rest, ⟨_, rfl⟩ | ⟨_, rfl⟩ | ⟨_, rfl⟩ | ⟨x, _, hx⟩⟩
  · rwa [State.blockStep_faults]
  · rwa [State.blockStep_faults]
  · rwa [State.poll_faults]
  · exact hf
  · exact mem_faults_hostTxn hx hf

/-! The run goes on -/

theorem exists_exec_eq_next (i : Instr) (s : State) : ∃ t, exec i s = .next t := by
  cases i with
  | build => exact ⟨_, rfl⟩
  | decode => exact ⟨_, rfl⟩
  | release => exact ⟨_, rfl⟩

theorem exists_submitWord_eq_next (w : Word) (s : State) : ∃ t, submitWord w s = .next t := by
  cases hw : decodeWord w with
  | ok i => rw [submitWord_of_decodeWord hw]; exact exists_exec_eq_next i s
  | error e => rw [submitWord_of_error hw]; exact ⟨_, rfl⟩

theorem exists_writeRegister_eq_next (a : Nat) (v : Word) (s : State) : ∃ t, writeRegister a v s = .next t := by
  unfold writeRegister
  split_ifs
  · exact exists_submitWord_eq_next v s
  · exact ⟨_, rfl⟩
  · exact ⟨_, rfl⟩
  · exact ⟨_, rfl⟩

theorem exists_hostWrite_eq_next (a : Offset) (n : Nat) (v : Word) (s : State) : ∃ t, hostWrite a n v s = .next t := by
  unfold hostWrite
  split
  · exact exists_writeRegister_eq_next a.toNat v s
  · exact ⟨_, rfl⟩
  · exact ⟨_, rfl⟩
  · exact ⟨_, rfl⟩

theorem exists_hostTxn_eq_next (x : HostTxn) (s : State) : ∃ t, hostTxn x s = .next t := by
  cases x with
  | rd8 a => exact ⟨_, rfl⟩
  | rd16 a => exact ⟨_, rfl⟩
  | rd32 a => exact ⟨_, rfl⟩
  | wr8 a v => exact exists_hostWrite_eq_next a 1 _ s
  | wr16 a v => exact exists_hostWrite_eq_next a 2 _ s
  | wr32 a v => exact exists_hostWrite_eq_next a 4 v s

theorem exists_runEvent_eq_next (e : Event) (s : State) : ∃ t, runEvent e s = .next t := by
  cases e with
  | host x => exact exists_hostTxn_eq_next x s
  | wait => exact ⟨_, rfl⟩
  | block => exact ⟨_, rfl⟩
  | reset => exact ⟨_, rfl⟩

/-- Settles O57: every arm of every command answers a next state, and so does every event. -/
theorem everyStepGoesOn : Obligations.EveryStepGoesOn := by
  intro s
  cases ha : s.agenda with
  | nil => exact ⟨_, step_nil ha⟩
  | cons e rest => rw [step_cons ha]; exact exists_runEvent_eq_next e _

end Sys2Proof.Machine
end

section
/-! SUPPORT. Reset (70_reset_and_hazards.md R230 to R232): the values it leaves, the command it abandons, and that it is a
legal state. -/

namespace Sys2Proof.Machine

/-- The values that a reset gives STATUS, the sequencer, the registers and TABLE_VALID (70_reset_and_hazards.md R230). -/
structure State.ResetRegisters (s : State) : Prop where
  seq : s.seq = .idle
  statusWord : s.statusWord = 0
  inLen : s.inLen = 0
  outCount : s.outCount = 0
  outLen : s.outLen = 0
  consumed : s.consumed = 0
  taddrWord : s.taddrWord = 0
  tableValid : s.tableValid = false

theorem State.powerUp_resetRegisters (p : Params) (gen k : Nat) : (State.powerUp p gen k).ResetRegisters where
  seq := rfl
  statusWord := by simp [State.statusWord, State.busy, State.powerUp, flagBit, ErrCode.code]
  inLen := rfl
  outCount := rfl
  outLen := rfl
  consumed := rfl
  taddrWord := by simp [State.taddrWord, State.powerUp]
  tableValid := rfl

/-- What a platform reset keeps of the state before it, the fault set and the host's own, is no register. -/
theorem State.platformReset_resetRegisters (s : State) : s.platformReset.ResetRegisters :=
  { State.powerUp_resetRegisters s.params (s.gen + 1) s.draws with }

/-- CFG_IN_SIZE reads IN_SIZE in every state (10_state.md R45). -/
theorem State.readRegister_cfgInSize (s : State) : s.readRegister 0x024 = BitVec.ofNat 32 s.params.inSize := rfl

/-- CFG_OUT_SIZE reads OUT_SIZE in every state (10_state.md R46). -/
theorem State.readRegister_cfgOutSize (s : State) : s.readRegister 0x028 = BitVec.ofNat 32 s.params.outSize := rfl

/-- Settles O50: both resets are `State.powerUp` in the registers, and the platform's keeps the parameters. -/
theorem resetValues : Obligations.ResetValues := by
  intro s t hs
  have h : s.ResetRegisters := by
    rcases hs with rfl | rfl
    · exact State.powerUp_resetRegisters _ _ _
    · exact t.platformReset_resetRegisters
  exact ⟨h.statusWord, h.seq, h.inLen, h.outCount, h.outLen, h.consumed, h.taddrWord, h.tableValid,
    s.readRegister_cfgInSize, s.readRegister_cfgOutSize, fun heq => heq ▸ t.platformReset_params⟩

/-- After a reset every byte of IN and OUT is a free value of that reset (70_reset_and_hazards.md R231). -/
theorem State.readByte_platformReset (s : State) (a : Nat) :
    s.platformReset.readByte a = Config.unwrittenByte (s.gen + 1) a := rfl

/-- Settles O51: nothing of the state before the event decides the registers, so a running command is gone. -/
theorem resetAbandonsTheCommand : Obligations.ResetAbandonsTheCommand := by
  intro s rest hagenda
  have h := State.platformReset_resetRegisters { s with agenda := rest }
  exact ⟨_, step_cons hagenda, rfl, h.seq, (State.busy_eq_false_iff _).mpr h.seq, h.statusWord, h.inLen, h.outCount,
    h.outLen, h.consumed, h.taddrWord, h.tableValid, State.readByte_platformReset _, rfl, rfl, rfl, rfl⟩

/-- The block right after a reset is legal for all legal parameters: it is idle, lists no byte and has no table. -/
theorem State.powerUp_legal {p : Params} (hp : p.wellFormed = true) (gen k : Nat) : (State.powerUp p gen k).Legal :=
  State.Sound.legal_of_idle
    { params := hp
      memWf := Memory.wf_nil
      memWindow := fun _ hc => absurd hc List.not_mem_nil
      table := fun ht => Bool.noConfusion ht
      results := ⟨Nat.zero_le _, Nat.zero_le _⟩
      faultSet := List.nodup_nil }
    rfl rfl (by rintro (h | h) <;> cases h)

/-- Settles O58. -/
theorem legalAtReset : Obligations.LegalAtReset := State.powerUp_legal (by decide) 0 0

end Sys2Proof.Machine
end

section
/-! SUPPORT. The host's write to a buffer that a running command may use (70_reset_and_hazards.md R236): what it stores and
records, and what the command then reads and writes there. -/

namespace Sys2Proof.Machine

/-- A raced byte reads as the draw. -/
theorem State.readIn_of_raced {s : State} {o : Nat} (h : inAddr o ∈ s.raced) (d : Byte) : s.readIn o d = d := if_pos h

/-- An emission to a raced byte stores the draw. -/
theorem State.readByte_emit_of_raced {s : State} {e : Nat} (h : outAddr e ∈ s.raced) (v d : Byte) :
    (s.emit e v d).readByte (outAddr e) = d := by
  rw [State.emit, if_pos h, State.readByte_writeByte_self]

/-- A buffer write stores its bytes, whether or not a command runs. -/
theorem State.readByte_writeBuffer (s : State) (a : Offset) (bs : List Byte) (b : Nat) :
    (s.writeBuffer a bs).readByte b = (s.writeBytes a.toNat bs).readByte b :=
  State.readByte_congr (by rw [State.writeBuffer_eq]) (by rw [State.writeBuffer_eq, State.writeBytes_eq]) b

theorem State.writeBuffer_of_busy {s : State} (h : s.busy = true) (a : Offset) (bs : List Byte) :
    s.writeBuffer a bs = State.recordFault
      { s.writeBytes a.toNat bs with raced := (List.range bs.length).map (a.toNat + ·) ++ s.raced } (.hostRace a) := by
  rw [State.writeBuffer, if_pos h]

/-- Each byte that a write while BUSY = 1 stores is raced. -/
theorem State.mem_raced_writeBuffer {s : State} (h : s.busy = true) (a : Offset) {bs : List Byte} {k : Nat}
    (hk : k < bs.length) : a.toNat + k ∈ (s.writeBuffer a bs).raced := by
  rw [State.writeBuffer_of_busy h, State.recordFault_eq]
  exact List.mem_append_left _ (List.mem_map_of_mem (List.mem_range.mpr hk))

/-- A byte written alone is the one byte of its word. -/
theorem leBytes_one (v : Byte) : leBytes 1 (v.setWidth 32) = [v] := by simp [leBytes]

/-- Settles O48: the event is a buffer write, and the bytes it stores are raced. -/
theorem racingWriteIsRecorded : Obligations.RacingWriteIsRecorded := by
  intro s a t bs rest hagenda hb ht hadm
  have hstep : step s = .next (State.writeBuffer { s with agenda := rest } a bs) := by
    rw [step_host hagenda]
    rcases ht with ⟨v, rfl, rfl⟩ | ⟨v, rfl, rfl⟩ | ⟨v, rfl, rfl⟩
    · exact (hostWrite_buffer (n := 1) { s with agenda := rest } _ hadm).trans (by rw [leBytes_one])
    · exact hostWrite_buffer { s with agenda := rest } (v.setWidth 32) hadm
    · exact hostWrite_buffer { s with agenda := rest } v hadm
  have hraced : ∀ k, k < bs.length → a.toNat + k ∈ (State.writeBuffer { s with agenda := rest } a bs).raced :=
    fun k hk => State.mem_raced_writeBuffer (s := { s with agenda := rest }) hb a hk
  refine ⟨_, hstep, fun k hk => ?_, fun b hout => ?_, ?_, ?_, ?_, fun k o hk ho => ?_, fun k e hk he => ?_⟩
  · rw [State.readByte_writeBuffer, State.readByte_writeBytes_inside _ _ _ k hk]
  · rw [State.readByte_writeBuffer, State.readByte_writeBytes_outside _ _ _ _ hout]
    rfl
  · rw [State.writeBuffer_of_busy (s := { s with agenda := rest }) hb]
    exact State.mem_recordFault_self _ _
  · rw [State.writeBuffer_eq]
  · rw [State.writeBuffer_eq]
  · exact State.readIn_of_raced (ho ▸ hraced k hk)
  · exact State.readByte_emit_of_raced (he ▸ hraced k hk)

end Sys2Proof.Machine
end

section
/-! SUPPORT. A command in progress completes (70_reset_and_hazards.md R240): BUILD one block step for each context still to
build, DECODE by the slots left. -/

namespace Sys2Proof.Machine

/-- From BUILD(c), the steps of the contexts c to 255 complete the command. -/
theorem runBlock_build_ends {n : Nat} {s : State} {c : Byte} (hseq : s.seq = .build c) (hn : c.toNat + n = 255) :
    (runBlock (n + 1) s).seq = .idle ∧ (runBlock (n + 1) s).done = true := by
  induction n generalizing s c with
  | zero =>
    have hlast : c = 255 := BitVec.eq_of_toNat_eq hn
    rw [runBlock_succ, runBlock_zero, State.blockStep_of_build_last (hlast ▸ hseq)]
    exact ⟨State.buildComplete_seq _, State.buildComplete_done _⟩
  | succ n ih =>
    have hne : c ≠ 255 := by bv_omega
    rw [runBlock_succ]
    exact ih (c := c + 1) (by rw [State.blockStep_of_build hseq hne]) (by bv_omega)

/-- One bit slot goes on with the walk or sets DONE. -/
theorem State.slotStep_goesOnOrEnds {s : State} (hseq : s.seq = .decode) :
    s.slotStep.GoesOnOrEnds (fun _ => True) (fun u => u.done = true) := by
  rcases s.slotStep_cases with ⟨_, hs⟩ | ⟨_, _, hs⟩ | ⟨_, _, _, hs⟩ | ⟨_, _, _, hs⟩ <;> rw [hs]
  · exact .inl ⟨hseq, trivial⟩
  · exact .inr ⟨State.walkFinish_seq _, State.walkFinish_done _⟩
  · exact .inr ⟨State.walkError_seq _ _, State.walkError_done _ _⟩
  · exact .inl ⟨hseq, trivial⟩

/-- One block step of DECODE goes on with the walk or sets DONE. -/
theorem State.decodeStep_goesOnOrEnds {s : State} (hseq : s.seq = .decode) :
    s.decodeStep.GoesOnOrEnds (fun _ => True) (fun u => u.done = true) := by
  rcases s.decodeStep_cases with ⟨_, hs⟩ | ⟨_, _, hs⟩ | ⟨_, _, _, hs⟩ | ⟨_, _, _, hs⟩ <;> rw [hs]
  · exact State.slotStep_goesOnOrEnds hseq
  · exact .inr ⟨State.walkFinish_seq _, State.walkFinish_done _⟩
  · exact .inr ⟨State.walkError_seq _ _, State.walkError_done _ _⟩
  · exact State.slotStep_goesOnOrEnds (s := s.fetchByte) hseq

/-- A command in progress ends within 8 * IN_SIZE block steps: BUILD has at most 256 contexts left, which IN_SIZE covers
because it holds the frequency image, and DECODE fewer slots than IN has bits. -/
theorem State.Legal.runBlock_ends {s : State} (h : s.Legal) (hb : s.busy = true) :
    ∃ n ≤ 8 * s.params.inSize, (runBlock n s).seq = .idle ∧ (runBlock n s).done = true := by
  obtain ⟨himage, _⟩ := Params.bounds_of_wellFormed h.params
  cases hseq : s.seq with
  | idle => exact absurd hseq ((State.busy_eq_true_iff s).mp hb)
  | build c =>
    have hc := c.isLt
    exact ⟨255 - c.toNat + 1, by omega, runBlock_build_ends hseq (by omega)⟩
  | decode =>
    obtain ⟨n, hn, hend⟩ := h.runBlock_decode_ends (fun _ _ hu _ => State.decodeStep_goesOnOrEnds hu) hseq trivial
    exact ⟨n, hn.trans (h.slotsLeft_lt hseq), hend⟩

/-- Settles O60: with no host event left the machine makes block steps, and those complete the command. -/
theorem commandInProgressCompletes : Obligations.CommandInProgressCompletes := by
  intro s h hb hagenda
  obtain ⟨n, hn, hidle, hdone⟩ := h.runBlock_ends hb
  obtain ⟨hrun, hnil⟩ := run_of_agenda_nil n hagenda
  exact ⟨n, _, hn, hrun, (State.busy_eq_false_iff _).mpr hidle, hdone, hnil⟩

end Sys2Proof.Machine
end
